-- ==== Sys2Proof/Word.lean ====
section
/-! DEFINITION. The word type of the model: the byte of the link (R1). Everything else the manual counts is a `Nat`
or an `Int` held within the range the manual gives it. -/

namespace Sys2Proof

/-- A byte of the link (R1). Node numbers, codes and flags travel as bytes, so they are bytes here too. -/
abbrev Byte := BitVec 8

end Sys2Proof
end

