-- ==== Sys2Proof/Syntax.lean ====
section
/-! DEFINITION. The commands the part takes: one constructor for each row of spec/opcode_table.json. The part has no
program and no instruction words; a command is an event at a port, a pin, the time base, a timer or a block, or a request
of the supervisor taken by the Request Handler. -/

namespace Sys2Proof

/-- The two link ports (R1). -/
inductive Port where
  | supervisor
  | field
  deriving DecidableEq, Repr

/-- The two ways into cold reset (R187). -/
inductive ResetCause where
  /-- Power is applied. -/
  | powerOn
  /-- RESET_N goes low on a part that has power. -/
  | resetPin
  deriving DecidableEq, Repr

/-- Who sent a request and under which tag (R8, R21). -/
structure Requester where
  node : Byte
  tag  : BitVec 16
  deriving DecidableEq, Repr

/-- A wind channel, 0..3. -/
abbrev ChannelIx := Fin 4

/-- A drive, 0..7. -/
abbrev DriveIx := Fin 8

/-- A command of the part: one constructor for each row of the table of operations and events.

The request rows are the requests as the Request Handler takes them (R176), each with the node that sent it, its tag and its
arguments as they came, byte by byte, so that a value outside its range can be asked for and refused. A request that
crosses the link comes in by `frameArrival` and reaches the same operation. -/
inductive Instr where
  /-- FRAME_ARRIVAL (R2): the run of bytes between two idles of the line at a port, and whether one of its bytes had a
  missing stop bit. Activity too short to make a byte is the empty run. -/
  | frameArrival (port : Port) (bytes : List Byte) (badStop : Bool)
  /-- TRANSMIT_START (R15). -/
  | transmitStart (port : Port)
  /-- TRANSMIT_COMPLETION (R17). -/
  | transmitCompletion (port : Port)
  /-- NOTICE_FRAME_BUILD (R14). -/
  | noticeFrameBuild
  /-- COLD_RESET (R187): power is applied, or RESET_N goes low. -/
  | coldReset (cause : ResetCause)
  /-- STOP_IN_ASSERTION (R135). -/
  | stopInAssertion
  /-- QUARTER_TICK (R178). -/
  | quarterTick
  /-- RIDE_SECOND_TICK (R178). The operand says which of the tick's two takers takes it first: the ride clock and closing
  alarm (`true`) or the Wind Assessor (`false`); R180 allows either. -/
  | rideSecondTick (clockFirst : Bool)
  /-- HOLD_DOWN_EXPIRY (R104). -/
  | holdDownExpiry
  /-- CHANNEL_STALE (R98). -/
  | channelStale (channel : ChannelIx)
  /-- CHANNEL_LIVE (R97). -/
  | channelLive (channel : ChannelIx)
  /-- ENCODER_WATCH_EXPIRY (R38). -/
  | encoderWatchExpiry
  /-- STALENESS_TIMER_EXPIRY (R131). -/
  | stalenessTimerExpiry (drive : DriveIx)
  /-- FLUSH_TIMER_EXPIRY (R182). -/
  | flushTimerExpiry
  /-- COMMIT_TIMER_EXPIRY (R168). -/
  | commitTimerExpiry
  /-- COMMIT_WALK_COMPLETION (R165). The operand is the number of the acceptance the completion belongs to (R163). -/
  | commitWalkCompletion (walk : Nat)
  /-- SWAP (R166). -/
  | swap
  /-- DEFERRED_WARM_RESTART (R171). -/
  | deferredWarmRestart
  /-- READ_DIRECTORY (R175): the first header. -/
  | readDirectory (who : Requester) (first : Byte)
  /-- READ_TABLE (R161): table, bank, first index, count. -/
  | readTable (who : Requester) (table bank first count : Byte)
  /-- WRITE_STAGING (R162): bank, table, first index, count, and the entries' bytes. -/
  | writeStaging (who : Requester) (bank table first count : Byte) (entries : List Byte)
  /-- COMMIT_STAGING (R163): the bank. -/
  | commitStaging (who : Requester) (bank : Byte)
  /-- ABORT_COMMIT (R169). -/
  | abortCommit (who : Requester)
  /-- REVERT_TO_FLOOR (R170). -/
  | revertToFloor (who : Requester)
  /-- READ_STATUS (R177). -/
  | readStatus (who : Requester)
  /-- SET_SERVICE (R64): cabin and service state. -/
  | setService (who : Requester) (cabin service : Byte)
  /-- SET_OCCUPANCY (R65): cabin and occupancy. -/
  | setOccupancy (who : Requester) (cabin occupancy : Byte)
  /-- SET_OPERATOR_FLOOR (R106): the level. -/
  | setOperatorFloor (who : Requester) (level : Byte)
  /-- BEGIN_SWEEP (R155). -/
  | beginSweep (who : Requester)
  /-- END_SWEEP (R155). -/
  | endSweep (who : Requester)
  /-- OPEN_BOARDING (R155). -/
  | openBoarding (who : Requester)
  /-- LATCH_STOP (R135). -/
  | latchStop (who : Requester)
  /-- CLEAR_STOP (R136). -/
  | clearStop (who : Requester)
  /-- SET_CLOCK (R179): hours, minutes, seconds. -/
  | setClock (who : Requester) (hours minutes seconds : Byte)
  /-- SET_CLOSING_ALARM (R180): hours, minutes, enable. -/
  | setClosingAlarm (who : Requester) (hours minutes enable : Byte)
  /-- RESUME_NOTICES (R185). -/
  | resumeNotices (who : Requester)
  /-- WARM_RESTART (R186). -/
  | warmRestart (who : Requester)
  /-- ENVELOPE_WRITE (R173): field identifier and value. -/
  | envelopeWrite (who : Requester) (field : Byte) (value : BitVec 16)
  /-- ENVELOPE_LOCK (R174). -/
  | envelopeLock (who : Requester)
  /-- STOP_IN_RELEASE (R136). -/
  | stopInRelease
  /-- END_OF_COLD_RESET (R187): RESET_N returns high or power settles; the level of the MODE strap sampled then. -/
  | endOfColdReset (modeHigh : Bool)
  /-- POWER_LOSS (R137). -/
  | powerLoss
  deriving DecidableEq, Repr

end Sys2Proof
end

