-- ==== Sys2Proof/Decode.lean ====
section
/-! DEFINITION. Reading a command from a word of the table. spec/opcode_table.json gives bits to none of its rows (every
row's "fields" is empty): the part takes events and requests, not instruction words. A request's own bytes are read in
`Sys2Proof.Machine.Requests`, from the frame that carries it (R21). -/

namespace Sys2Proof

/-- The command that a word spells by the table's bits. No row of the table gives bits, so no word spells a command. -/
def decodeTableWord (_nbits _w : Nat) : Option Instr := none

end Sys2Proof
end

