-- ==== Sys2Proof/Config.lean ====
section
/-! DEFINITION. What one part fixes and the manual does not: opaque constants, with no body, so that no proof can rest
on a value of theirs. -/

namespace Sys2Proof

/-- The part's 64-bit factory serial number, returned by Read Directory (R175). Its value is the part's own
(log entry 3). -/
opaque Config.serialNumber : BitVec 64

/-- How long a commit walk takes, in ms, for the walk of the given number. R163 says only that the completion follows the
acceptance "within 20 ms"; `Sys2Proof.Machine.walkTime` bounds it (log entry 4). -/
opaque Config.walkDelay : Nat → Nat

/-- Which of the two owners of a ride-second tick takes it first, at a tick raised by the part's own time base: the Clock
Unit's ride clock and alarm (`true`) or the Wind Assessor (`false`). R180: "Either may be taken first" (log entry 5).
The argument is the Clock Unit's millisecond count. -/
opaque Config.clockFirst : Nat → Bool

end Sys2Proof
end

