-- ==== Sys2Proof/Machine/State.lean ====
section
/-! DEFINITION. The state of the part, as plain data: one structure for each of the blocks of the manual, the queue of
commands that wait, and the state right after reset. Where the manual gives one thing two names, it has one home here and
the other name is a view of it (the reported membership, a cabin's zone and grant, the notice queue's length). -/

namespace Sys2Proof.Machine

/-! ## Names of the manual

`OPEN` is spelled `opened` in the three types that have it (levels, door states, gate states): the other word is Lean's. -/

/-- Whether the part is at work: R187 and R137. -/
inductive Phase where
  | running
  /-- RESET_N is low, or power has not settled (R187). -/
  | heldInReset
  /-- The part has no power (R137). -/
  | unpowered
  deriving DecidableEq, Repr

/-- The mode the MODE strap selects (R35). -/
inductive Mode where
  | screen
  | monitor
  deriving DecidableEq, Repr

/-- The two berths (R23). -/
inductive Berth where
  | a
  | b
  deriving DecidableEq, Repr

/-- One of a thing for each berth. -/
structure PerBerth (α : Type) where
  a : α
  b : α
  deriving DecidableEq, Repr

/-- The wind hold levels, in order (R102). -/
inductive Level where
  | opened
  | watch
  | reduced
  | unload
  | park
  deriving DecidableEq, Repr

/-- A frame's direction, fixed by the port it arrived at (R5). -/
inductive Direction where
  | toField
  | toSupervisor
  deriving DecidableEq, Repr

/-- The treatments, mildest first (R29). -/
inductive Treatment where
  | pass
  | screen
  | bar
  deriving DecidableEq, Repr

/-- The roles of nodes, with the index of those that have one (R23). -/
inductive Role where
  | supervisor
  | encoder
  | anemometer (channel : ChannelIx)
  | drive (drive : DriveIx)
  | station (berth : Berth)
  | hub
  deriving DecidableEq, Repr

/-! ## Frames -/

/-- A frame as it crosses the line (R20). The Length field is the length of the payload, and `check` is the two check bytes
it carries, which a frame forwarded unchanged keeps (R3, R5). -/
structure Frame where
  dest    : Byte
  src     : Byte
  cls     : Byte
  flags   : Byte
  seq     : Byte
  payload : List Byte
  check   : BitVec 16
  deriving DecidableEq, Repr

/-- The kind and subject under which an originated frame waits (R11). -/
inductive OriginKey where
  | substitute (drive : DriveIx)
  | doorLock (berth : Berth)
  | gateClose (berth : Berth)
  | beacon (berth : Berth)
  deriving DecidableEq, Repr

/-- A frame of the origin queue (R11). -/
structure Originated where
  key   : OriginKey
  frame : Frame
  deriving DecidableEq, Repr

/-- An ingress staging point (R1, R2): the first 56 bytes of the run now arriving, whether it ran past them, and whether a
byte had a missing stop bit. -/
structure Staging where
  bytes   : List Byte
  overran : Bool
  badStop : Bool
  deriving DecidableEq, Repr

/-- The Frame Path's state: staging points, the four queues, the two transmitters (the frame in transmission, `none` when
idle), the supervisor port's forward run count and the two sequence counters (R1, R10 to R18). -/
structure FramePath where
  supStaging : Staging
  fldStaging : Staging
  supForward : List Frame
  part       : List Frame
  fldForward : List Frame
  origin     : List Originated
  supTx      : Option Frame
  fldTx      : Option Frame
  runCount   : Nat
  fieldSeq   : Byte
  supSeq     : Byte
  deriving DecidableEq, Repr

/-! ## The Rim Tracker -/

/-- The values of the last GOOD RIM REPORT (R37). -/
structure Fix where
  position : Nat
  speed    : Int
  deriving DecidableEq, Repr

/-- The Rim Tracker's state (chapter 3). `watch` is the ms left on the encoder watch timer, `none` when it is stopped (R38).
Slot `i` of `lastKnown` and `marks` is cabin `i + 1`'s. The reported membership is a view: the last-known one while KNOWN,
NONE while UNKNOWN (`State.reported`). -/
structure RimTracker where
  known     : Bool
  fix       : Option Fix
  watch     : Option Nat
  lastKnown : Vector (Option Berth) 64
  marks     : Vector Bool 64
  deriving DecidableEq, Repr

/-! ## The Cabin Register -/

/-- A cabin's door (R55). -/
inductive DoorState where
  | locked
  | unlocked
  | opened
  | fault
  | unknown
  deriving DecidableEq, Repr

/-- The marks of cabins on the sweep list (R141); a cabin off the list has none. -/
inductive SweepMark where
  | pending
  | passed
  | stuck
  deriving DecidableEq, Repr

/-- A cabin's record (R52). The zone field is a view of the Rim Tracker's reported membership and the grant field of the
grant table (R53); the sweep mark and pass count are written by the Sweep Scheduler and kept here. -/
structure Cabin where
  inService : Bool
  door      : DoorState
  occupancy : Nat
  uncertain : Bool
  assist    : Bool
  lastExit  : Option Nat
  mark      : Option SweepMark
  passes    : Nat
  deriving DecidableEq, Repr

/-! ## The Boarding Screen -/

inductive GrantKind where
  | standard
  | assist
  deriving DecidableEq, Repr

inductive GrantState where
  | granted
  | withdrawing
  | late
  deriving DecidableEq, Repr

/-- A grant (R71). `at` in the manual is `since` here: the ride clock's seconds when the release was passed. -/
structure Grant where
  cabin : Nat
  kind  : GrantKind
  state : GrantState
  since : Nat
  deriving DecidableEq, Repr

inductive GateState where
  | opened
  | closed
  | unknown
  deriving DecidableEq, Repr

/-- A berth's gate picture (R72). -/
structure GatePicture where
  entry : GateState
  exit  : GateState
  deriving DecidableEq, Repr

/-- The Boarding Screen's state: the grant table, the gate pictures, and the conditions it keeps for the governor
(R71, R72, R85, R86). -/
structure BoardingScreen where
  grants     : PerBerth (Option Grant)
  gates      : PerBerth GatePicture
  doorStop   : Bool
  creep      : Bool
  creepValue : Nat
  deriving DecidableEq, Repr

/-! ## The Wind Assessor -/

inductive ChannelState where
  | unassigned
  | warming
  | live
  | stale
  deriving DecidableEq, Repr

/-- The values of one second at a channel (R96). -/
structure SecondValues where
  max  : Nat
  mean : Nat
  deriving DecidableEq, Repr

/-- A wind channel's record (chapter 6); both rings oldest first. -/
structure Channel where
  state       : ChannelState
  node        : Option Byte
  bucketMax   : Nat
  bucketSum   : Nat
  bucketCount : Nat
  held        : Option SecondValues
  gustRing    : List Nat
  sustRing    : List Nat
  sustSum     : Nat
  filled      : Nat
  stale       : Nat
  warm        : Nat
  direction   : Nat
  deriving DecidableEq, Repr

/-- The Wind Assessor's state (chapter 6). -/
structure WindAssessor where
  channels  : Vector Channel 4
  level     : Level
  countdown : Nat
  floor     : Level
  effGust   : Nat
  effSust   : Nat
  live      : Nat
  lead      : Option ChannelIx
  sent      : PerBerth (Option Nat)
  deriving DecidableEq, Repr

/-! ## The Speed Governor -/

inductive DriveState where
  | quiet
  | following
  | substituting
  | held
  deriving DecidableEq, Repr

/-- A drive's record (chapter 7). `screened` is the manual's t, in ms of the Clock Unit's count; `stale` is the ms left on
the staleness timer, `none` when it is stopped. -/
structure Drive where
  state    : DriveState
  speed    : Int
  credit   : Nat
  screened : Option Nat
  stale    : Option Nat
  subs     : Nat
  deriving DecidableEq, Repr

/-- The Speed Governor's state (chapter 7). `rimHold` is the rim-hold line as the drive system reads it: `true` is active
(released, high). -/
structure Governor where
  ceilingF : Nat
  ceilingV : Nat
  latch    : Bool
  rimHold  : Bool
  drives   : Vector Drive 8
  deriving DecidableEq, Repr

/-! ## The Sweep Scheduler -/

inductive SweepState where
  | idle
  | active
  | suspended
  | done
  deriving DecidableEq, Repr

/-- The Sweep Scheduler's state (chapter 8). The cause set is its three membership bits; the list holds cabin numbers, head
first; slot `i` of `served` is cabin `i + 1`'s flag. -/
structure SweepScheduler where
  state    : SweepState
  wind     : Bool
  close    : Bool
  operator : Bool
  list     : List Nat
  served   : Vector Bool 64
  deriving DecidableEq, Repr

/-! ## The Policy Store -/

/-- A present entry of NODE_ROLES (R23, R160). -/
structure RoleEntry where
  role : Role
  node : Byte
  deriving DecidableEq, Repr

/-- A present slot 0..23 of TREATMENT_MAP (R28, R160). Bit `n` of `classes` is the class of number `n` in the order R160
gives. -/
structure MapEntry where
  treatment : Treatment
  direction : Direction
  srcLo     : Byte
  srcHi     : Byte
  dstLo     : Byte
  dstHi     : Byte
  classes   : BitVec 16
  deriving DecidableEq, Repr

/-- A present entry of BERTHS (R42, R160): S, L, M, the creep ceiling and the station node. -/
structure BerthEntry where
  station : Byte
  start   : Nat
  length  : Nat
  margin  : Nat
  creep   : Nat
  deriving DecidableEq, Repr

/-- A present entry of WIND_LEVELS (R102, R160). -/
structure WindEntry where
  raiseGust : Nat
  raiseSust : Nat
  clearGust : Nat
  clearSust : Nat
  holdDown  : Nat
  deriving DecidableEq, Repr

/-- The WIND_FLOORS record (R102, R160). -/
structure FloorsRecord where
  quorum : Nat
  blind  : Level
  deriving DecidableEq, Repr

/-- A present entry of LEVEL_CEILINGS_AND_LIMITS (R102, R160). -/
structure LimitEntry where
  ceiling : Nat
  load    : Nat
  deriving DecidableEq, Repr

/-- The GOVERNOR record (R117, R160). -/
structure GovernorRecord where
  accel     : Nat
  decel     : Nat
  staleMs   : Nat
  encoderMs : Nat
  blind     : Nat
  tolerance : Nat
  reverse   : Bool
  deriving DecidableEq, Repr

/-- The ten tables of a bank (R160); an entry that is EMPTY is `none`. WIND_LEVELS has an entry for each of WATCH..PARK, the
two defaults are entries 24 and 25 of TREATMENT_MAP. -/
structure Bank where
  roles      : Vector (Option RoleEntry) 16
  map        : Vector (Option MapEntry) 24
  defField   : Option Treatment
  defSup     : Option Treatment
  berths     : PerBerth (Option BerthEntry)
  windLevels : Vector (Option WindEntry) 4
  floors     : Option FloorsRecord
  limits     : Vector (Option LimitEntry) 5
  beacons    : Vector (Option Nat) 6
  governor   : Option GovernorRecord
  passLimit  : Option Nat
  flushMs    : Option Nat
  deriving DecidableEq, Repr

/-- The three banks (R158). -/
inductive BankNo where
  | floor
  | one
  | two
  deriving DecidableEq, Repr

/-- The two loadable banks (R158). -/
inductive LoadBank where
  | one
  | two
  deriving DecidableEq, Repr

inductive CommitState where
  | idle
  | walking
  | pending
  deriving DecidableEq, Repr

/-- The Policy Store's state but for the envelope (chapter 9). `timer` is the ms left on the commit timer. The model's own:
`walk` numbers the acceptances, so that a completion can belong to one (R163), and `walkAge` is the ms since the last. -/
structure PolicyStore where
  bank1      : Bank
  bank2      : Bank
  active     : BankNo
  staging    : LoadBank
  commit     : CommitState
  commitBank : Option LoadBank
  timer      : Option Nat
  deferred   : Bool
  walk       : Nat
  walkAge    : Nat
  deriving DecidableEq, Repr

/-- The site envelope (R173): a field that has not been written is `none`. BLANK and WRITTEN are views of the fields. -/
structure Envelope where
  cabins     : Option Nat
  capacity   : Option Nat
  maxForward : Option Nat
  maxReverse : Option Nat
  berths     : Option Nat
  ownNode    : Option Byte
  supNode    : Option Byte
  gustCap    : Option Nat
  locked     : Bool
  deriving DecidableEq, Repr

/-! ## The Notice Unit -/

/-- The kinds of notices (R22). -/
inductive NoticeKind where
  | refused
  | clamped
  | cabin
  | link
  | level
  | sweep
  | stuck
  | commit
  | stop
  | stale
  | channel
  | close
  | overflow
  deriving DecidableEq, Repr

/-- A notice record (R22). -/
structure Notice where
  kind    : NoticeKind
  monitor : Bool
  subject : Byte
  stamp   : Nat
  data0   : Byte
  data1   : Byte
  data2   : Byte
  data3   : Byte
  count   : Nat
  deriving DecidableEq, Repr

/-- A record of the notice queue, with the last-good mark of R184. -/
structure Queued where
  note     : Notice
  lastGood : Bool
  deriving DecidableEq, Repr

inductive FreezeState where
  | flowing
  | holding
  | reporting
  | reported
  deriving DecidableEq, Repr

/-- The Notice Unit's state (R181 to R185). `flush` is the ms left on the flush timer. The model's own: while
`restarting` holds, a posted notice waits in `atClose` for the close of the event (R186); between events `restarting` is
`false` and `atClose` empty. -/
structure NoticeUnit where
  buffer     : List Notice
  flush      : Option Nat
  queue      : List Queued
  freeze     : FreezeState
  lost       : Nat
  firstLost  : Option NoticeKind
  restarting : Bool
  atClose    : List Notice
  deriving DecidableEq, Repr

/-! ## The Clock Unit -/

/-- The Clock Unit's state (R178 to R180). The model's own: `now` counts the ms since the end of cold reset, `sinceQuarter`
those since the last quarter tick, and `quarters` the quarter ticks since the last ride second. -/
structure ClockUnit where
  now          : Nat
  sinceQuarter : Nat
  quarters     : Nat
  set          : Bool
  time         : Nat
  alarmHour    : Nat
  alarmMinute  : Nat
  alarmOn      : Bool
  deriving DecidableEq, Repr

/-! ## The whole machine -/

/-- The state of the part. `pending` is the queue of commands that wait, first in, first out; `stopIn` is the level of the
STOP_IN pin (`true` is active, low). -/
structure State where
  pending  : List Instr
  phase    : Phase
  mode     : Mode
  stopIn   : Bool
  clock    : ClockUnit
  path     : FramePath
  rim      : RimTracker
  cabins   : Vector Cabin 64
  board    : BoardingScreen
  wind     : WindAssessor
  governor : Governor
  sweep    : SweepScheduler
  policy   : PolicyStore
  envelope : Envelope
  notices  : NoticeUnit
  deriving DecidableEq, Repr

/-- The reasons the machine stops with a fault. The manual describes none: every command, at every state, leaves the part in
a state the rules give. So there is no constructor, which is safe: no run of the model ends in a fault. -/
inductive Fault where
  deriving DecidableEq, Repr

/-- The reasons a command has no meaning. -/
inductive Refusal where
  /-- The command of this row has no meaning in the model yet. Raised by no arm of `exec`; safe, since a claim about a
  command that were so refused could not be proved. -/
  | notModelled (mnemonic : String)
  deriving DecidableEq, Repr

/-! ## The state after reset -/

/-- An empty staging point (R18). -/
def Staging.empty : Staging := { bytes := [], overran := false, badStop := false }

/-- The Frame Path at cold reset (R18). -/
def FramePath.reset : FramePath :=
  { supStaging := Staging.empty, fldStaging := Staging.empty
    supForward := [], part := [], fldForward := [], origin := []
    supTx := none, fldTx := none, runCount := 0, fieldSeq := 0, supSeq := 0 }

/-- The Rim Tracker at cold reset (R50) and at warm restart (R51). -/
def RimTracker.reset : RimTracker :=
  { known := false, fix := none, watch := none
    lastKnown := Vector.replicate 64 none, marks := Vector.replicate 64 false }

/-- A cabin's record at cold reset (R69). -/
def Cabin.reset : Cabin :=
  { inService := true, door := .unknown, occupancy := 0, uncertain := true, assist := false
    lastExit := none, mark := none, passes := 0 }

/-- A gate picture after either reset (R72). -/
def GatePicture.unknown : GatePicture := { entry := .unknown, exit := .unknown }

/-- The Boarding Screen at cold reset (R93), before it has recomputed its conditions: with no cabin in the envelope none
holds (R85, R86). -/
def BoardingScreen.reset : BoardingScreen :=
  { grants := { a := none, b := none }, gates := { a := .unknown, b := .unknown }
    doorStop := false, creep := false, creepValue := 0 }

/-- A channel with every field empty or 0 (R94, R112). -/
def Channel.unassigned : Channel :=
  { state := .unassigned, node := none, bucketMax := 0, bucketSum := 0, bucketCount := 0, held := none
    gustRing := [], sustRing := [], sustSum := 0, filled := 0, stale := 0, warm := 0, direction := 0 }

/-- The Wind Assessor at cold reset (R112). -/
def WindAssessor.reset : WindAssessor :=
  { channels := Vector.replicate 4 Channel.unassigned, level := .park, countdown := 900, floor := .opened
    effGust := 0, effSust := 0, live := 0, lead := none, sent := { a := none, b := none } }

/-- A drive at cold reset (R139). -/
def Drive.reset : Drive :=
  { state := .quiet, speed := 0, credit := 0, screened := none, stale := none, subs := 0 }

/-- The Speed Governor at cold reset (R139), with the rim-hold line released as it is while RESET_N is low (R137). -/
def Governor.reset : Governor :=
  { ceilingF := 0, ceilingV := 0, latch := true, rimHold := true, drives := Vector.replicate 8 Drive.reset }

/-- The Sweep Scheduler at cold reset (R157). -/
def SweepScheduler.reset : SweepScheduler :=
  { state := .idle, wind := false, close := false, operator := false, list := []
    served := Vector.replicate 64 false }

/-- A loadable bank with every entry EMPTY (R158). -/
def Bank.empty : Bank :=
  { roles := Vector.replicate 16 none, map := Vector.replicate 24 none, defField := none, defSup := none
    berths := { a := none, b := none }, windLevels := Vector.replicate 4 none, floors := none
    limits := Vector.replicate 5 none, beacons := Vector.replicate 6 none
    governor := none, passLimit := none, flushMs := none }

/-- The Policy Store at cold reset (R158). `walk` goes on counting, so that a completion from before the reset belongs to no
later acceptance (R163). -/
def PolicyStore.reset (walk : Nat) : PolicyStore :=
  { bank1 := Bank.empty, bank2 := Bank.empty, active := .floor, staging := .one, commit := .idle
    commitBank := none, timer := none, deferred := false, walk := walk, walkAge := 0 }

/-- The envelope of a part that leaves the factory (R173). -/
def Envelope.blank : Envelope :=
  { cabins := none, capacity := none, maxForward := none, maxReverse := none, berths := none
    ownNode := none, supNode := none, gustCap := none, locked := false }

/-- The Notice Unit after either reset (R181). -/
def NoticeUnit.reset : NoticeUnit :=
  { buffer := [], flush := none, queue := [], freeze := .flowing, lost := 0, firstLost := none
    restarting := false, atClose := [] }

/-- The Clock Unit at the end of cold reset (R178, R179, R180). -/
def ClockUnit.reset : ClockUnit :=
  { now := 0, sinceQuarter := 0, quarters := 0, set := false, time := 0
    alarmHour := 0, alarmMinute := 0, alarmOn := false }

/-- The part right after its first cold reset has ended: the factory's BLANK envelope, the MODE strap high (its internal
pull-up) and so SCREEN mode, STOP_IN inactive, every block in its cold-reset state, and no command waiting (R187; log
entries 1 and 2). -/
def State.reset : State :=
  { pending := [], phase := .running, mode := .screen, stopIn := false
    clock := ClockUnit.reset, path := FramePath.reset, rim := RimTracker.reset
    cabins := Vector.replicate 64 Cabin.reset, board := BoardingScreen.reset, wind := WindAssessor.reset
    governor := Governor.reset, sweep := SweepScheduler.reset, policy := PolicyStore.reset 0
    envelope := Envelope.blank, notices := NoticeUnit.reset }

end Sys2Proof.Machine
end

