-- ==== Sys2Proof/Machine/Operands.lean ====
section
/-! DEFINITION. The operand forms of the link: numbers in bytes, the check, the header and payload of every class, what a
frame must be to be taken, and the codes of the manual's enumerated values (R2 to R4, R20 to R22). -/

namespace Sys2Proof.Machine

/-! ## Per-berth and fixed-size tables -/

/-- The berth's own of a pair. -/
def PerBerth.get {α : Type} (p : PerBerth α) : Berth → α
  | .a => p.a
  | .b => p.b

/-- The pair with the berth's own replaced. -/
def PerBerth.set {α : Type} (p : PerBerth α) : Berth → α → PerBerth α
  | .a, x => { p with a := x }
  | .b, x => { p with b := x }

/-- Slot `i` of a table, or `d` past its end. -/
def slot {α : Type} {n : Nat} (v : Vector α n) (i : Nat) (d : α) : α := v[i]?.getD d

/-! ## Numbers in bytes (R20: most significant byte first; signed fields two's complement) -/

/-- A number as one byte. -/
def byte (n : Nat) : Byte := BitVec.ofNat 8 n

/-- A number as two bytes. -/
def be2 (n : Nat) : List Byte := [byte (n / 256), byte n]

/-- A number as three bytes. -/
def be3 (n : Nat) : List Byte := [byte (n / 65536), byte (n / 256), byte n]

/-- A number as four bytes. -/
def be4 (n : Nat) : List Byte := [byte (n / 16777216), byte (n / 65536), byte (n / 256), byte n]

/-- The number in bytes, most significant first. -/
def beNat (bs : List Byte) : Nat := bs.foldl (fun n b => n * 256 + b.toNat) 0

/-- The signed number of two bytes. -/
def signed2 (hi lo : Byte) : Int := (hi ++ lo : BitVec 16).toInt

/-- A signed number as two bytes. -/
def sbe2 (x : Int) : List Byte := be2 (BitVec.ofInt 16 x).toNat

/-- The high and low byte of a signed number, as a notice carries them. -/
def sHi (x : Int) : Byte := byte ((BitVec.ofInt 16 x).toNat / 256)
def sLo (x : Int) : Byte := byte (BitVec.ofInt 16 x).toNat

/-- A truth value as a byte, 0 or 1. -/
def flagByte (b : Bool) : Byte := if b then 1 else 0

/-- A field that may be absent: a presence byte, then the field when it is there (R21). -/
def optional {α : Type} (f : α → List Byte) : Option α → List Byte
  | none => [0]
  | some x => 1 :: f x

/-! ## The check (R3) -/

/-- One bit of the division by x^16 + x^12 + x^5 + 1. -/
def crcShift (r : BitVec 16) : BitVec 16 := if r.msb then (r <<< 1) ^^^ 0x1021 else r <<< 1

/-- One byte, taken from its most significant bit down. -/
def crcByte (r : BitVec 16) (b : Byte) : BitVec 16 :=
  (crcShift ∘ crcShift ∘ crcShift ∘ crcShift ∘ crcShift ∘ crcShift ∘ crcShift ∘ crcShift) (r ^^^ (b ++ (0 : Byte)))

/-- The check over a run of bytes, from a register of all ones (R3). -/
def crc (bs : List Byte) : BitVec 16 := bs.foldl crcByte 0xFFFF

/-! ## Classes (R20) -/

/-- The classes of frames; a code that R20 does not list is of class OTHER (R4). -/
inductive FrameClass where
  | speedOrder
  | doorOrder
  | gateOrder
  | beaconOrder
  | rimReport
  | windReport
  | doorReport
  | countReport
  | gateReport
  | request
  | reply
  | notice
  | other
  deriving DecidableEq, Repr

/-- The class a code names (R20). -/
def classOf (code : Byte) : FrameClass :=
  match code.toNat with
  | 17 => .speedOrder
  | 18 => .doorOrder
  | 19 => .gateOrder
  | 20 => .beaconOrder
  | 33 => .rimReport
  | 34 => .windReport
  | 35 => .doorReport
  | 36 => .countReport
  | 37 => .gateReport
  | 49 => .request
  | 50 => .reply
  | 51 => .notice
  | _ => .other

/-- The bit of a class in a class set (R160). -/
def FrameClass.bit : FrameClass → Nat
  | .speedOrder => 0
  | .doorOrder => 1
  | .gateOrder => 2
  | .beaconOrder => 3
  | .rimReport => 4
  | .windReport => 5
  | .doorReport => 6
  | .countReport => 7
  | .gateReport => 8
  | .request => 9
  | .reply => 10
  | .notice => 11
  | .other => 12

/-- The class of a frame. -/
def Frame.kind (f : Frame) : FrameClass := classOf f.cls

/-- The kind codes of notice records (R22). -/
def noticeKindCodes : List Nat := [1, 2, 3, 4, 16, 17, 18, 19, 20, 21, 22, 23, 24]

/-- Whether `n` records of ten bytes fill a NOTICE's payload, each with its kind code listed, its time stamp a second of the day and its
repeat count above 0; the subject, the data and the MONITOR bit take any value (R22). -/
def noticeRecordsOk : Nat → List Byte → Bool
  | 0, p => p.isEmpty
  | n + 1, kind :: _ :: t2 :: t1 :: t0 :: _ :: _ :: _ :: _ :: count :: p =>
      noticeKindCodes.contains (kind.toNat % 128) && decide (beNat [t2, t1, t0] ≤ 86399) && decide (1 ≤ count.toNat) &&
        noticeRecordsOk n p
  | _ + 1, _ => false

/-- Whether a payload has the length and the field ranges its class gives (R20 to R22). A REQUEST is judged by its length alone
and OTHER is not inspected (R4); of a REPLY the outcome is judged, since the range of its data is the request's (log entry 6). -/
def payloadOk (c : FrameClass) (p : List Byte) : Bool :=
  match c with
  | .speedOrder => match p with
    | [_, _, brake] => decide (brake.toNat ≤ 1)
    | _ => false
  | .doorOrder => match p with
    | [cabin, action, kind] =>
        decide (1 ≤ cabin.toNat) && decide (cabin.toNat ≤ 64) && decide (action.toNat ≤ 1) && decide (kind.toNat ≤ 1)
    | _ => false
  | .gateOrder => match p with
    | [gate, action] => decide (gate.toNat ≤ 1) && decide (action.toNat ≤ 1)
    | _ => false
  | .beaconOrder => match p with
    | [pattern] => decide (pattern.toNat ≤ 7)
    | _ => false
  | .rimReport => match p with
    | [p2, p1, p0, _, _, status] => decide (beNat [p2, p1, p0] ≤ 1048575) && decide (status.toNat ≤ 1)
    | _ => false
  | .windReport => match p with
    | [_, _, d1, d0, status] => decide (beNat [d1, d0] ≤ 359) && decide (status.toNat ≤ 1)
    | _ => false
  | .doorReport => match p with
    | [cabin, door] => decide (1 ≤ cabin.toNat) && decide (cabin.toNat ≤ 64) && decide (door.toNat ≤ 3)
    | _ => false
  | .countReport => match p with
    | [cabin, _, _] => decide (1 ≤ cabin.toNat) && decide (cabin.toNat ≤ 64)
    | _ => false
  | .gateReport => match p with
    | [entry, exit] => decide (entry.toNat ≤ 1) && decide (exit.toNat ≤ 1)
    | _ => false
  | .request => decide (3 ≤ p.length) && decide (p.length ≤ 48)
  | .reply => match p with
    | _ :: _ :: outcome :: _ => decide (p.length ≤ 48) && decide (outcome.toNat ≤ 6)
    | _ => false
  | .notice => decide (1 ≤ p.length) && decide (p.length ≤ 40) && noticeRecordsOk ((p.length + 9) / 10) p
  | .other => true

/-! ## Frames in bytes (R20) -/

/-- The header and the payload, which the check covers (R3). -/
def Frame.body (f : Frame) : List Byte :=
  [f.dest, f.src, f.cls, f.flags, f.seq, byte f.payload.length] ++ f.payload

/-- A frame as it crosses the line. -/
def Frame.bytes (f : Frame) : List Byte := f.body ++ be2 f.check.toNat

/-- A frame the part builds: its fields, and a fresh check (R3, R7, R8, R9). -/
def Frame.build (dest src cls flags seq : Byte) (payload : List Byte) : Frame :=
  let f : Frame := { dest := dest, src := src, cls := cls, flags := flags, seq := seq, payload := payload, check := 0 }
  { f with check := crc f.body }

/-- The fields of a run of at least 8 bytes, and its Length field as sent. -/
def splitFrame (bs : List Byte) : Option (Frame × Nat) :=
  match bs with
  | dest :: src :: cls :: flags :: seq :: len :: rest =>
      if rest.length < 2 then none
      else
        let n := rest.length - 2
        some ({ dest := dest, src := src, cls := cls, flags := flags, seq := seq, payload := rest.take n,
                check := BitVec.ofNat 16 (beNat (rest.drop n)) }, len.toNat)
  | _ => none

/-- What the Frame Path makes of a run of bytes at its arrival (R2, R4). -/
inductive Judged where
  | badCheck
  | malformed (f : Frame)
  | taken (f : Frame)
  deriving DecidableEq, Repr

/-- Fill a staging point with a run of bytes: it keeps the first 56 (R1, R2). -/
def Staging.fill (bytes : List Byte) (badStop : Bool) : Staging :=
  { bytes := bytes.take 56, overran := decide (56 < bytes.length), badStop := badStop }

/-- Whether a frame that passed R2 has the form R4 asks for; `len` is its Length field. -/
def formOk (f : Frame) (len : Nat) : Bool :=
  decide (len ≤ 48) && decide (f.payload.length = len) && (f.src != 255) && payloadOk f.kind f.payload

/-- The judgement of R2 and R4 on what a staging point holds. -/
def judge (st : Staging) : Judged :=
  if st.overran || st.badStop then .badCheck
  else match splitFrame st.bytes with
    | none => .badCheck
    | some (f, len) =>
        if crc (st.bytes.take (st.bytes.length - 2)) ≠ f.check then .badCheck
        else if formOk f len then .taken f
        else .malformed f

/-- The class codes of the orders the part originates and of its replies and notices (R20). -/
def codeSpeedOrder : Byte := 17
def codeDoorOrder : Byte := 18
def codeGateOrder : Byte := 19
def codeBeaconOrder : Byte := 20
def codeRequest : Byte := 49
def codeReply : Byte := 50
def codeNotice : Byte := 51

/-- The flags of R20. -/
def flagAmended : Byte := 1
def flagOrigin : Byte := 2

/-! ## Codes of enumerated values -/

/-- A level's number (R102, R21). -/
def Level.code : Level → Nat
  | .opened => 0
  | .watch => 1
  | .reduced => 2
  | .unload => 3
  | .park => 4

/-- The level of a number, `none` above 4. -/
def Level.ofCode : Nat → Option Level
  | 0 => some .opened
  | 1 => some .watch
  | 2 => some .reduced
  | 3 => some .unload
  | 4 => some .park
  | _ => none

/-- The higher of two levels. -/
def Level.max (x y : Level) : Level := if x.code < y.code then y else x

/-- One step down; OPEN stays. -/
def Level.down : Level → Level
  | .opened => .opened
  | .watch => .opened
  | .reduced => .watch
  | .unload => .reduced
  | .park => .unload

def Berth.code : Berth → Nat
  | .a => 0
  | .b => 1

def Mode.code : Mode → Nat
  | .screen => 0
  | .monitor => 1

/-- R67's door codes. -/
def DoorState.code : DoorState → Nat
  | .locked => 0
  | .unlocked => 1
  | .opened => 2
  | .fault => 3
  | .unknown => 4

/-- The door state a DOOR REPORT carries (R20). -/
def DoorState.ofCode : Nat → DoorState
  | 0 => .locked
  | 1 => .unlocked
  | 2 => .opened
  | _ => .fault

/-- R92's gate codes. -/
def GateState.code : GateState → Nat
  | .opened => 0
  | .closed => 1
  | .unknown => 2

/-- The gate state a GATE REPORT carries (R20). -/
def GateState.ofCode : Nat → GateState
  | 0 => .opened
  | _ => .closed

def GrantKind.code : GrantKind → Nat
  | .standard => 0
  | .assist => 1

def GrantState.code : GrantState → Nat
  | .granted => 0
  | .withdrawing => 1
  | .late => 2

/-- R100's channel codes. -/
def ChannelState.code : ChannelState → Nat
  | .unassigned => 0
  | .warming => 1
  | .live => 2
  | .stale => 3

/-- R138's drive codes. -/
def DriveState.code : DriveState → Nat
  | .quiet => 0
  | .following => 1
  | .substituting => 2
  | .held => 3

/-- R153's sweep codes. -/
def SweepState.code : SweepState → Nat
  | .idle => 0
  | .active => 1
  | .suspended => 2
  | .done => 3

/-- R68's mark codes. -/
def markCode : Option SweepMark → Nat
  | none => 0
  | some .pending => 1
  | some .passed => 2
  | some .stuck => 3

def BankNo.code : BankNo → Nat
  | .floor => 0
  | .one => 1
  | .two => 2

def LoadBank.code : LoadBank → Nat
  | .one => 1
  | .two => 2

/-- The loadable bank of a number, `none` for any other number (R158). -/
def LoadBank.ofCode : Nat → Option LoadBank
  | 1 => some .one
  | 2 => some .two
  | _ => none

def LoadBank.other : LoadBank → LoadBank
  | .one => .two
  | .two => .one

def LoadBank.toBankNo : LoadBank → BankNo
  | .one => .one
  | .two => .two

def CommitState.code : CommitState → Nat
  | .idle => 0
  | .walking => 1
  | .pending => 2

def FreezeState.code : FreezeState → Nat
  | .flowing => 0
  | .holding => 1
  | .reporting => 2
  | .reported => 3

/-- R22's kind codes. -/
def NoticeKind.code : NoticeKind → Nat
  | .refused => 1
  | .clamped => 2
  | .cabin => 3
  | .link => 4
  | .level => 16
  | .sweep => 17
  | .stuck => 18
  | .commit => 19
  | .stop => 20
  | .stale => 21
  | .channel => 22
  | .close => 23
  | .overflow => 24

/-- The kinds with codes below 16 are combinable (R22). -/
def NoticeKind.combinable (k : NoticeKind) : Bool := decide (k.code < 16)

/-- A notice record's ten bytes (R22). -/
def Notice.bytes (n : Notice) : List Byte :=
  [byte (n.kind.code + if n.monitor then 128 else 0), n.subject] ++ be3 n.stamp ++
    [n.data0, n.data1, n.data2, n.data3, byte n.count]

/-- The outcomes of a reply (R21). -/
inductive ReplyOutcome where
  | done
  | accepted
  | busy
  | range
  | state
  | locked
  | unknownRequest
  deriving DecidableEq, Repr

def ReplyOutcome.code : ReplyOutcome → Nat
  | .done => 0
  | .accepted => 1
  | .busy => 2
  | .range => 3
  | .state => 4
  | .locked => 5
  | .unknownRequest => 6

/-- What a request is answered: the outcome and the reply data. -/
structure Answer where
  outcome : ReplyOutcome
  data    : List Byte
  deriving DecidableEq, Repr

/-- A refusal carries no data (R176). -/
def Answer.bare (o : ReplyOutcome) : Answer := { outcome := o, data := [] }

/-- A REPLY's payload (R21). -/
def Answer.payload (a : Answer) (tag : BitVec 16) : List Byte :=
  be2 tag.toNat ++ [byte a.outcome.code] ++ a.data

/-- The reasons of a REFUSED notice (R26). -/
inductive Reason where
  | barred
  | notSupervisor
  | unexpected
  | badField
  | broadcast
  | stopLatched
  | positionUnknown
  | notInService
  | notInZone
  | pastWithdraw
  | berthBusy
  | level
  | sweepClosed
  | reverse
  | tooFast
  | notStopped
  | gateClosedBoarding
  | noGrant
  | loadLimit
  | countUngranted
  deriving DecidableEq, Repr

def Reason.code : Reason → Nat
  | .barred => 1
  | .notSupervisor => 2
  | .unexpected => 3
  | .badField => 4
  | .broadcast => 5
  | .stopLatched => 16
  | .positionUnknown => 17
  | .notInService => 18
  | .notInZone => 19
  | .pastWithdraw => 20
  | .berthBusy => 21
  | .level => 22
  | .sweepClosed => 23
  | .reverse => 24
  | .tooFast => 25
  | .notStopped => 26
  | .gateClosedBoarding => 27
  | .noGrant => 28
  | .loadLimit => 29
  | .countUngranted => 30

end Sys2Proof.Machine
end

