-- ==== Sys2Proof/Machine/Bank.lean ====
section
/-! DEFINITION. Reading the policy: bank 0's fixed contents, the active bank, its tables as the blocks read them, the
envelope's fields, and the roles of nodes (R23, R24, R102, R158, R159, R173).

An active bank that was loaded has passed the commit walk, so every record a block reads is present in it (R164, R166). Where
a reading below must say something about a missing record, it reads bank 0's (log entry 7). -/

namespace Sys2Proof.Machine

/-! ## Bank 0 (R159) -/

/-- Bank 0's WIND_LEVELS: WATCH, REDUCED, UNLOAD, PARK. -/
def floorWind : Vector (Option WindEntry) 4 :=
  #v[some { raiseGust := 110, raiseSust := 80, clearGust := 95, clearSust := 70, holdDown := 120 },
     some { raiseGust := 140, raiseSust := 105, clearGust := 125, clearSust := 95, holdDown := 300 },
     some { raiseGust := 170, raiseSust := 130, clearGust := 150, clearSust := 115, holdDown := 600 },
     some { raiseGust := 210, raiseSust := 160, clearGust := 185, clearSust := 140, holdDown := 900 }]

/-- Bank 0's GOVERNOR record (R117). -/
def floorGovernor : GovernorRecord :=
  { accel := 20, decel := 100, staleMs := 1000, encoderMs := 500, blind := 0, tolerance := 0, reverse := false }

/-- Bank 0's BEACON_PATTERNS, the default patterns (R113). -/
def floorBeacons : Vector (Option Nat) 6 := #v[some 0, some 2, some 3, some 5, some 7, some 4]

/-- Bank 0, the fixed floor (R159). -/
def floorBank : Bank :=
  { Bank.empty with
    defField := some .bar, defSup := some .pass
    windLevels := floorWind
    floors := some { quorum := 1, blind := .park }
    limits := Vector.replicate 5 (some { ceiling := 0, load := 0 })
    beacons := floorBeacons
    governor := some floorGovernor
    passLimit := some 2
    flushMs := some 100 }

/-! ## The banks by number -/

/-- The contents of a bank (R158). -/
def State.bank (s : State) : BankNo → Bank
  | .floor => floorBank
  | .one => s.policy.bank1
  | .two => s.policy.bank2

/-- The active bank, which every block reads (R158). -/
def State.active (s : State) : Bank := s.bank s.policy.active

/-! ## The tables of a bank as the blocks read them -/

/-- The place of a level above OPEN in WIND_LEVELS. -/
def Level.windIndex (l : Level) : Nat := l.code - 1

/-- The WIND_LEVELS entry of a level above OPEN. -/
def Bank.wind (k : Bank) (l : Level) : WindEntry :=
  (slot k.windLevels l.windIndex none).getD
    ((slot floorWind l.windIndex none).getD
      { raiseGust := 0, raiseSust := 0, clearGust := 0, clearSust := 0, holdDown := 0 })

/-- A level's hold-down H; OPEN has none and reads 0 (R102, R104). -/
def Bank.holdDown (k : Bank) (l : Level) : Nat := if l = .opened then 0 else (k.wind l).holdDown

/-- The WIND_FLOORS record. -/
def Bank.floorsRecord (k : Bank) : FloorsRecord := k.floors.getD { quorum := 1, blind := .park }

/-- A level's entry of LEVEL_CEILINGS_AND_LIMITS. -/
def Bank.limit (k : Bank) (l : Level) : LimitEntry :=
  (slot k.limits l.code none).getD { ceiling := 0, load := 0 }

/-- A level's wind ceiling; PARK's is fixed at 0 (R102). -/
def Bank.ceiling (k : Bank) (l : Level) : Nat := if l = .park then 0 else (k.limit l).ceiling

/-- A level's load limit; UNLOAD's and PARK's are fixed at 0 (R62, R102). -/
def Bank.load (k : Bank) (l : Level) : Nat :=
  if l = .unload ∨ l = .park then 0 else (k.limit l).load

/-- The GOVERNOR record. -/
def Bank.gov (k : Bank) : GovernorRecord := k.governor.getD floorGovernor

/-- The pass limit of the SWEEP record. -/
def Bank.passes (k : Bank) : Nat := k.passLimit.getD 2

/-- The flush delay of the NOTICE_PARAMS record. -/
def Bank.flushDelay (k : Bank) : Nat := k.flushMs.getD 100

/-- The pattern of place `i` of BEACON_PATTERNS: 0..4 the levels, 5 closing (R113). -/
def Bank.pattern (k : Bank) (i : Nat) : Nat :=
  (slot k.beacons i none).getD ((slot floorBeacons i none).getD 0)

/-- A berth's entry of BERTHS; `none` when EMPTY. -/
def Bank.berth (k : Bank) (berth : Berth) : Option BerthEntry := k.berths.get berth

/-- The present entries of NODE_ROLES, in index order. -/
def Bank.roleEntries (k : Bank) : List RoleEntry := k.roles.toList.filterMap id

/-- The role of a node, `none` if it holds none (R23). -/
def Bank.roleOf (k : Bank) (node : Byte) : Option Role :=
  (k.roleEntries.find? fun e => e.node == node).map RoleEntry.role

/-- The node that holds a role, `none` if none does (R23). -/
def Bank.nodeOf (k : Bank) (r : Role) : Option Byte :=
  (k.roleEntries.find? fun e => e.role == r).map RoleEntry.node

/-! ## The envelope (R173) -/

/-- The cabin count N; 0 while unwritten. -/
def Envelope.count (e : Envelope) : Nat := e.cabins.getD 0

/-- The maximum forward speed C_env; 0 while unwritten. -/
def Envelope.forward (e : Envelope) : Nat := e.maxForward.getD 0

/-- The maximum reverse speed R_env; 0 while unwritten. -/
def Envelope.reverse (e : Envelope) : Nat := e.maxReverse.getD 0

/-- The capacity; 0 while unwritten. -/
def Envelope.seats (e : Envelope) : Nat := e.capacity.getD 0

/-- The own node; 250 while unwritten (R24, R173). -/
def Envelope.own (e : Envelope) : Byte := e.ownNode.getD 250

/-- Whether no field has been written (R173). -/
def Envelope.untouched (e : Envelope) : Bool :=
  e.cabins.isNone && e.capacity.isNone && e.maxForward.isNone && e.maxReverse.isNone && e.berths.isNone &&
    e.ownNode.isNone && e.supNode.isNone && e.gustCap.isNone

/-- Whether every field has been written (R174). -/
def Envelope.complete (e : Envelope) : Bool :=
  e.cabins.isSome && e.capacity.isSome && e.maxForward.isSome && e.maxReverse.isSome && e.berths.isSome &&
    e.ownNode.isSome && e.supNode.isSome && e.gustCap.isSome

/-- The envelope's state as the ENVELOPE table codes it: 0 BLANK, 1 WRITTEN, 2 LOCKED (R173, R174). -/
def Envelope.code (e : Envelope) : Nat := if e.locked then 2 else if e.untouched then 0 else 1

/-! ## Supervisors (R24) -/

/-- Whether a node holds the SUPERVISOR role or is the written commissioning supervisor node. -/
def State.namedSupervisor (s : State) (node : Byte) : Bool :=
  decide (s.active.roleOf node = some .supervisor) || decide (s.envelope.supNode = some node)

/-- Whether a source counts as a supervisor for requests: any does while the commissioning node is unwritten (R24). -/
def State.requestSupervisor (s : State) (node : Byte) : Bool :=
  s.envelope.supNode.isNone || s.namedSupervisor node

/-- Whether a source counts as a supervisor for orders: none does while the commissioning node is unwritten (R24). -/
def State.orderSupervisor (s : State) (node : Byte) : Bool :=
  s.envelope.supNode.isSome && s.namedSupervisor node

/-- Where a NOTICE goes (R8). -/
def State.noticeDest (s : State) : Byte :=
  match s.active.nodeOf .supervisor with
  | some n => n
  | none => s.envelope.supNode.getD 255

/-! ## Cabins by number -/

/-- Whether a cabin number names a slot that is not ABSENT (R52). -/
def State.present (s : State) (c : Nat) : Bool := decide (1 ≤ c) && decide (c ≤ s.envelope.count)

/-- The cabin numbers 1 to N. -/
def State.cabinNumbers (s : State) : List Nat := (List.range s.envelope.count).map (· + 1)

/-- A cabin's record. A number outside 1..64 names no slot and reads as a record at cold reset. -/
def State.cabin (s : State) (c : Nat) : Cabin := if c = 0 then Cabin.reset else slot s.cabins (c - 1) Cabin.reset

/-- The grant a cabin holds, with its berth (R53, R71). -/
def State.grantOf (s : State) (c : Nat) : Option (Berth × Grant) :=
  match s.board.grants.a with
  | some g => if g.cabin = c then some (.a, g) else
      match s.board.grants.b with
      | some h => if h.cabin = c then some (.b, h) else none
      | none => none
  | none =>
      match s.board.grants.b with
      | some h => if h.cabin = c then some (.b, h) else none
      | none => none

/-- Whether a cabin holds a grant. -/
def State.holdsGrant (s : State) (c : Nat) : Bool := (s.grantOf c).isSome

/-- Whether the grant table holds no grant. -/
def State.noGrants (s : State) : Bool := s.board.grants.a.isNone && s.board.grants.b.isNone

/-- The membership the other blocks see: the last-known one while KNOWN, NONE while UNKNOWN (R39, R40, R53). -/
def State.reported (s : State) (c : Nat) : Option Berth :=
  if s.rim.known && decide (1 ≤ c) then slot s.rim.lastKnown (c - 1) none else none

/-- The last fix, or 0 and 0 while absent (R39). -/
def State.lastFix (s : State) : Fix := s.rim.fix.getD { position := 0, speed := 0 }

/-- The seconds a notice is stamped with: the ride clock's, or 0 while UNSET (R54, R76, R181). -/
def State.stamp (s : State) : Nat := if s.clock.set then s.clock.time else 0

/-- The counts of one revolution of the rim. -/
def rimCounts : Nat := 1048576

/-- Cabin c's angle at rim position P on a wheel of N cabins (R41). -/
def cabinAngle (n p c : Nat) : Nat := (p + (c - 1) * rimCounts / n) % rimCounts

/-- `x - y` modulo a revolution, for `x` and `y` below it. -/
def rimSub (x y : Nat) : Nat := (x + rimCounts - y) % rimCounts

/-- A cabin's arc past a berth's zone start (R42). -/
def arcAt (z : BerthEntry) (n p c : Nat) : Nat := rimSub (cabinAngle n p c) z.start

end Sys2Proof.Machine
end

