-- ==== Sys2Proof/Machine/Ops.lean ====
section
/-! DEFINITION. The shared operations: replacing a block's state, posting notices, the four outgoing queues, building frames,
the two transmit arbiters, the close of an event, and the passing of time (R6 to R17, R178, R181 to R185). -/

namespace Sys2Proof.Machine

/-! ## Replacing a block's state -/

def State.withClock (s : State) (x : ClockUnit) : State := { s with clock := x }
def State.withPath (s : State) (x : FramePath) : State := { s with path := x }
def State.withRim (s : State) (x : RimTracker) : State := { s with rim := x }
def State.withCabins (s : State) (x : Vector Cabin 64) : State := { s with cabins := x }
def State.withBoard (s : State) (x : BoardingScreen) : State := { s with board := x }
def State.withWind (s : State) (x : WindAssessor) : State := { s with wind := x }
def State.withGovernor (s : State) (x : Governor) : State := { s with governor := x }
def State.withSweep (s : State) (x : SweepScheduler) : State := { s with sweep := x }
def State.withPolicy (s : State) (x : PolicyStore) : State := { s with policy := x }
def State.withEnvelope (s : State) (x : Envelope) : State := { s with envelope := x }
def State.withNotices (s : State) (x : NoticeUnit) : State := { s with notices := x }

/-- Replace the record of cabin `c`; a number outside 1..64 names no slot. -/
def State.withCabin (s : State) (c : Nat) (x : Cabin) : State :=
  if c = 0 then s else s.withCabins (s.cabins.setIfInBounds (c - 1) x)

/-- Replace the record of drive `d`. -/
def State.withDrive (s : State) (d : DriveIx) (x : Drive) : State :=
  s.withGovernor { s.governor with drives := s.governor.drives.set d x }

/-- Replace the record of channel `c`. -/
def State.withChannel (s : State) (c : ChannelIx) (x : Channel) : State :=
  s.withWind { s.wind with channels := s.wind.channels.set c x }

/-- Replace the slot of a berth in the grant table. -/
def State.withGrant (s : State) (berth : Berth) (x : Option Grant) : State :=
  s.withBoard { s.board with grants := s.board.grants.set berth x }

/-! ## The Notice Unit (R181 to R185) -/

/-- Whether two records of combinable kinds share a key: REFUSED by class (every code that R20 does not list being the class
OTHER), subject and reason; CLAMPED by drive (the subject less the 8 of a forced brake); CABIN by cabin; LINK by port and cause
(R4, R6, R26, R67, R127). -/
def Notice.sameKey (m n : Notice) : Bool :=
  match m.kind, n.kind with
  | .refused, .refused => m.subject == n.subject && m.data0 == n.data0 && classOf m.data1 == classOf n.data1
  | .clamped, .clamped => m.subject.toNat % 8 == n.subject.toNat % 8
  | .cabin, .cabin => m.subject == n.subject
  | .link, .link => m.subject == n.subject && m.data0 == n.data0
  | _, _ => false

/-- Mark the last record of a queue as last-good (R184). -/
def markLast : List Queued → List Queued
  | [] => []
  | [q] => [{ q with lastGood := true }]
  | q :: r :: qs => q :: markLast (r :: qs)

/-- The most records the notice queue holds (R184). -/
def queueRoom : Nat := 32

/-- A record reaches the notice queue: entered, or lost and counted (R184). -/
def NoticeUnit.enter (u : NoticeUnit) (n : Notice) : NoticeUnit :=
  match u.freeze with
  | .flowing =>
      if u.queue.length < queueRoom then
        { u with queue := u.queue ++ [{ note := n, lastGood := false }] }
      else
        { u with freeze := .holding, queue := markLast u.queue, lost := 1, firstLost := some n.kind }
  | .holding | .reporting | .reported => { u with lost := min (u.lost + 1) 65535 }

/-- Drain the combining buffer to the notice queue, oldest first. The timer is stopped: it runs only while the buffer holds a
record (R182, R183). -/
def NoticeUnit.drain (u : NoticeUnit) : NoticeUnit :=
  u.buffer.foldl NoticeUnit.enter { u with buffer := [], flush := none }

/-- The most records the combining buffer holds (R182). -/
def bufferRoom : Nat := 8

/-- Fold a notice into the record of its key: that record takes the notice's contents and keeps its place (R182). -/
def foldInto (n : Notice) : List Notice → List Notice
  | [] => []
  | m :: ms => if m.sameKey n then { n with count := min (m.count + 1) 255 } :: ms else m :: foldInto n ms

/-- A combinable notice goes to the combining buffer; `delay` is the active bank's flush delay (R182). -/
def NoticeUnit.combine (u : NoticeUnit) (delay : Nat) (n : Notice) : NoticeUnit :=
  if u.buffer.any (fun m => m.sameKey n) then { u with buffer := foldInto n u.buffer }
  else match u.buffer with
    | [] => { u with buffer := [n], flush := some delay }
    | m :: ms =>
        if u.buffer.length < bufferRoom then { u with buffer := u.buffer ++ [n] }
        else { (u.enter m) with buffer := ms ++ [n] }

/-- A notice reaches the Notice Unit: the buffer if its kind is combinable, else the queue behind the drained buffer
(R181, R183). -/
def NoticeUnit.take (u : NoticeUnit) (delay : Nat) (n : Notice) : NoticeUnit :=
  if n.kind.combinable then u.combine delay n else u.drain.enter n

/-- A notice is handed to the Notice Unit; one that a warm restart raises waits for the close of the event (R186). -/
def State.deliver (s : State) (n : Notice) : State :=
  if s.notices.restarting then s.withNotices { s.notices with atClose := s.notices.atClose ++ [n] }
  else s.withNotices (s.notices.take s.active.flushDelay n)

/-- A block posts a notice: the Notice Unit stamps it and gives it a repeat count of 1 (R181). -/
def State.post (s : State) (kind : NoticeKind) (monitor : Bool) (subject d0 d1 d2 d3 : Byte) : State :=
  s.deliver { kind := kind, monitor := monitor, subject := subject, stamp := s.stamp
              data0 := d0, data1 := d1, data2 := d2, data3 := d3, count := 1 }

/-- The notices a warm restart raised are posted at the close of the event (R186). -/
def State.releaseAtClose (s : State) : State :=
  s.notices.atClose.foldl State.deliver
    (s.withNotices { s.notices with restarting := false, atClose := [] })

/-! ## The forward queues (R6, R10) -/

/-- The number of a port in a LINK notice (R6). -/
def portNumber : Port → Byte
  | .supervisor => 0
  | .field => 1

/-- The most frames a forward queue holds (R10). -/
def forwardRoom : Nat := 16

/-- A LINK CONGESTION notice for a frame that found a forward queue full (R6, R10). -/
def State.postCongestion (s : State) (p : Port) (f : Frame) : State :=
  s.post .link false (portNumber p) 2 f.cls f.dest f.src

/-- Offer a frame to the forward queue of a port: admitted at the tail, or dropped with LINK CONGESTION (R10). -/
def State.offerForward (s : State) (p : Port) (f : Frame) : State :=
  match p with
  | .supervisor =>
      if s.path.supForward.length < forwardRoom then
        s.withPath { s.path with supForward := s.path.supForward ++ [f] }
      else s.postCongestion p f
  | .field =>
      if s.path.fldForward.length < forwardRoom then
        s.withPath { s.path with fldForward := s.path.fldForward ++ [f] }
      else s.postCongestion p f

/-! ## The origin queue (R7, R11) -/

/-- A waiting frame of the key is replaced in its place; with none, the frame joins the tail (R11). -/
def placeOrigin (o : Originated) : List Originated → List Originated
  | [] => [o]
  | w :: ws => if w.key = o.key then o :: ws else w :: placeOrigin o ws

/-- Originate an order toward the field: built with the next field sequence number and offered to the origin queue
(R7, R11). -/
def State.originate (s : State) (key : OriginKey) (dest cls : Byte) (payload : List Byte) : State :=
  let f := Frame.build dest s.envelope.own cls flagOrigin s.path.fieldSeq payload
  s.withPath { s.path with
    fieldSeq := s.path.fieldSeq + 1
    origin := placeOrigin { key := key, frame := f } s.path.origin }

/-- Originate a DOOR, GATE or SPEED ORDER to the node that holds a role: nothing is built in MONITOR mode (R36), nor when the
active bank gives the role no node (R132). -/
def State.originateOrder (s : State) (key : OriginKey) (role : Role) (cls : Byte) (payload : List Byte) : State :=
  if s.mode = .monitor then s
  else match s.active.nodeOf role with
    | none => s
    | some n => s.originate key n cls payload

/-! ## The part queue (R8, R13, R14) -/

/-- The most frames the part queue holds, and the number at which no NOTICE frame is built (R13, R14). -/
def partRoom : Nat := 8
def noticeRoom : Nat := 6

/-- Build a frame from the part to the supervisor side and put it at the tail of the part queue (R8). -/
def State.enqueuePart (s : State) (dest cls : Byte) (payload : List Byte) : State :=
  s.withPath { s.path with
    supSeq := s.path.supSeq + 1
    part := s.path.part ++ [Frame.build dest s.envelope.own cls 0 s.path.supSeq payload] }

/-- The OVERFLOW record, stamped at its placing (R185). -/
def overflowRecord (stamp : Nat) (u : NoticeUnit) : Notice :=
  { kind := .overflow, monitor := false, subject := 0, stamp := stamp
    data0 := byte (u.lost / 256), data1 := byte u.lost
    data2 := byte ((u.firstLost.map NoticeKind.code).getD 0), data3 := 0, count := 1 }

/-- The Notice Unit gives up to four records from the head of its queue to a NOTICE frame. When the last-good record is among
them OVERFLOW is placed; when OVERFLOW is among them the state becomes REPORTED (R184, R185). -/
def NoticeUnit.giveUp (u : NoticeUnit) (stamp : Nat) : NoticeUnit :=
  let out := u.queue.take 4
  let left := { u with queue := u.queue.drop 4 }
  if out.any Queued.lastGood then
    { left with queue := left.queue ++ [{ note := overflowRecord stamp u, lastGood := false }], freeze := .reporting }
  else if out.any (fun q => q.note.kind == .overflow) then { left with freeze := .reported }
  else left

/-- Build one NOTICE frame if both conditions of R14 hold. -/
def State.buildNotice (s : State) : State :=
  if s.notices.queue ≠ [] ∧ s.path.part.length < noticeRoom then
    let out := s.notices.queue.take 4
    (s.enqueuePart s.noticeDest codeNotice (out.flatMap fun q => q.note.bytes)).withNotices
      (s.notices.giveUp s.stamp)
  else s

/-- Build NOTICE frames while both conditions hold: at most six, since each adds a frame to a part queue below six (R14). -/
def State.buildNotices (s : State) : State :=
  s.buildNotice.buildNotice.buildNotice.buildNotice.buildNotice.buildNotice

/-! ## The transmit arbiters (R15, R16, R17) -/

/-- The field port's transmitter, if idle, starts the head of the origin queue, or else of the forward queue (R15). -/
def State.chooseField (s : State) : State :=
  match s.path.fldTx with
  | some _ => s
  | none =>
      match s.path.origin with
      | o :: os => s.withPath { s.path with fldTx := some o.frame, origin := os }
      | [] =>
          match s.path.fldForward with
          | f :: fs => s.withPath { s.path with fldTx := some f, fldForward := fs }
          | [] => s

/-- The supervisor port's transmitter, if idle, chooses by the table of R16 and keeps the forward run count. -/
def State.chooseSupervisor (s : State) : State :=
  match s.path.supTx with
  | some _ => s
  | none =>
      match s.path.supForward, s.path.part with
      | f :: fs, [] => s.withPath { s.path with supTx := some f, supForward := fs, runCount := 0 }
      | [], p :: ps => s.withPath { s.path with supTx := some p, part := ps, runCount := 0 }
      | f :: fs, p :: ps =>
          if s.path.runCount < 4 then
            s.withPath { s.path with supTx := some f, supForward := fs, runCount := s.path.runCount + 1 }
          else s.withPath { s.path with supTx := some p, part := ps, runCount := 0 }
      | [], [] => s

/-- A port's transmitter chooses, if it is idle. -/
def State.choose (s : State) : Port → State
  | .supervisor => s.chooseSupervisor
  | .field => s.chooseField

/-- What follows by itself once an event has been dealt with: idle transmitters choose among the frames the event admitted,
NOTICE frames are built for the records it queued, and what that admits is offered to an idle transmitter in turn (R14, R15,
R16, R17; log entry 8). -/
def State.settle (s : State) : State :=
  s.chooseSupervisor.buildNotices.chooseSupervisor.buildNotices.chooseField

/-- The close of an event: notices a warm restart held back are posted (R186), and the part settles. -/
def State.close (s : State) : State := s.releaseAtClose.settle

/-- Take an event: it acts on a part at work, and closes. A part held in reset or without power takes none (R187, R137). -/
def State.takeEvent (s : State) (body : State → State) : State :=
  match s.phase with
  | .running => (body s).close
  | .heldInReset => s
  | .unpowered => s

/-! ## Time (R178) -/

/-- Let `ms` milliseconds pass at every running timer and at the time base. A timer that runs out stands at 0 until its
expiry is taken (log entry 9). -/
def State.advance (s : State) (ms : Nat) : State :=
  { s with
    clock := { s.clock with now := s.clock.now + ms, sinceQuarter := s.clock.sinceQuarter + ms }
    rim := { s.rim with watch := s.rim.watch.map (· - ms) }
    governor := { s.governor with
      drives := Vector.ofFn fun d => { s.governor.drives[d] with stale := (s.governor.drives[d]).stale.map (· - ms) } }
    policy := { s.policy with timer := s.policy.timer.map (· - ms), walkAge := s.policy.walkAge + ms }
    notices := { s.notices with flush := s.notices.flush.map (· - ms) } }

end Sys2Proof.Machine
end

