-- ==== Sys2Proof/Machine/Flags.lean ====
section
/-! DEFINITION. The conditions and status values the blocks compute from the state: the door-stop and creep conditions, the
ceilings and the rim-hold line, boarding closed, the load limit, the effective wind, the target and clear conditions of the
level, and the sweep state of a cause set (R56, R62, R85, R86, R88, R99 to R105, R117 to R119, R137, R141). -/

namespace Sys2Proof.Machine

/-! ## Doors and boarding -/

/-- A door state that stops the wheel in a cabin without a grant (R56). -/
def DoorState.stops : DoorState → Bool
  | .unlocked | .opened | .fault => true
  | .locked | .unknown => false

/-- The grants held. -/
def State.grants (s : State) : List Grant := s.board.grants.a.toList ++ s.board.grants.b.toList

/-- A STANDARD grant that is GRANTED or WITHDRAWING (R86). -/
def Grant.creeps (g : Grant) : Bool := decide (g.kind = .standard) && decide (g.state ≠ .late)

/-- The door-stop condition (R85). -/
def State.doorStopNow (s : State) : Bool :=
  s.cabinNumbers.any (fun c => (s.cabin c).door.stops && !s.holdsGrant c) ||
    s.grants.any (fun g => decide (g.state = .late) || decide (g.kind = .assist))

/-- The creep condition (R86). -/
def State.creepNow (s : State) : Bool :=
  s.grants.any Grant.creeps || s.cabinNumbers.any (fun c => decide ((s.cabin c).door = .unknown))

/-- The creep ceilings of the berths the active bank defines, among those `p` picks. -/
def State.creepCeilings (s : State) (p : Berth → Bool) : List Nat :=
  [Berth.a, Berth.b].filterMap fun b => if p b then (s.active.berth b).map BerthEntry.creep else none

/-- Whether a berth's slot holds a STANDARD grant that is GRANTED or WITHDRAWING. -/
def State.creepsAt (s : State) (b : Berth) : Bool := (s.board.grants.get b).any Grant.creeps

/-- The least of a list, `none` when it is empty. -/
def least : List Nat → Option Nat
  | [] => none
  | x :: xs => some (xs.foldl min x)

/-- The creep value (R86). -/
def State.creepValueNow (s : State) : Nat :=
  (least (s.creepCeilings s.creepsAt)).getD ((least (s.creepCeilings fun _ => true)).getD 0)

/-- Boarding is closed while the sweep is not IDLE or the level is UNLOAD or PARK (R88). -/
def State.boardingClosed (s : State) : Bool :=
  decide (s.sweep.state ≠ .idle) || decide (s.wind.level = .unload) || decide (s.wind.level = .park)

/-- The load limit in force (R62). -/
def State.loadLimit (s : State) : Nat := min s.envelope.seats (s.active.load s.wind.level)

/-! ## The ceilings -/

/-- C_board (R117). -/
def State.boardCeiling (s : State) : Nat :=
  if s.governor.latch || s.board.doorStop then 0
  else if s.board.creep then s.board.creepValue
  else s.envelope.forward

/-- C_pos (R117). -/
def State.positionCeiling (s : State) : Nat :=
  if s.rim.known then s.envelope.forward else s.active.gov.blind

/-- The forward ceiling F (R118). -/
def State.forwardNow (s : State) : Nat :=
  min (min s.envelope.forward (s.active.ceiling s.wind.level)) (min s.boardCeiling s.positionCeiling)

/-- Whether reverse is permitted (R119). -/
def State.reversePermitted (s : State) : Bool :=
  s.noGrants && decide (s.wind.level.code ≤ 2) && s.active.gov.reverse && decide (0 < s.forwardNow)

/-- The reverse ceiling V (R119). -/
def State.reverseNow (s : State) : Nat :=
  if s.reversePermitted then min s.envelope.reverse s.forwardNow else 0

/-- The rim-hold line for a pair of ceilings, in a part at work (R137). -/
def rimHoldFor (m : Mode) (f v : Nat) : Bool := decide (m = .screen) && decide (f = 0) && decide (v = 0)

/-- The governor recomputes F, V and the rim-hold line (R120, R137). -/
def State.recomputeCeilings (s : State) : State :=
  s.withGovernor { s.governor with
    ceilingF := s.forwardNow, ceilingV := s.reverseNow
    rimHold := rimHoldFor s.mode s.forwardNow s.reverseNow }

/-- The Boarding Screen recomputes both conditions and the creep value and hands them to the governor, which recomputes its
ceilings (R87, R120). -/
def State.recomputeBoarding (s : State) : State :=
  (s.withBoard { s.board with
    doorStop := s.doorStopNow, creep := s.creepNow, creepValue := s.creepValueNow }).recomputeCeilings

/-! ## The effective wind (R99, R101) -/

/-- A channel's gust: the largest entry of its gust ring, 0 when empty (R99). -/
def Channel.gust (c : Channel) : Nat := c.gustRing.foldl max 0

/-- A channel's sustained value (R99). -/
def Channel.sustained (c : Channel) : Nat := c.sustSum / c.filled

/-- The channels by index, ascending. -/
def channelIndices : List ChannelIx := [0, 1, 2, 3]

/-- The LIVE channels, ascending. -/
def State.liveChannels (s : State) : List ChannelIx :=
  channelIndices.filter fun c => decide (s.wind.channels[c].state = .live)

/-- The lead channel: the LIVE channel with the highest gust, the lowest index among equals (R101). -/
def State.leadNow (s : State) : Option ChannelIx :=
  s.liveChannels.foldl (fun best c =>
    match best with
    | none => some c
    | some d => if s.wind.channels[d].gust < s.wind.channels[c].gust then some c else some d) none

/-- Recompute the effective values, the live count and the lead channel (R101). -/
def State.recomputeWind (s : State) : State :=
  s.withWind { s.wind with
    effGust := (s.liveChannels.map fun c => s.wind.channels[c].gust).foldl max 0
    effSust := (s.liveChannels.map fun c => s.wind.channels[c].sustained).foldl max 0
    live := s.liveChannels.length
    lead := s.leadNow }

/-! ## The level (R102 to R105) -/

/-- PARK's raise gust in force: capped by the envelope's PARK gust cap once that is written (R102). -/
def State.parkRaiseGust (s : State) : Nat :=
  match s.envelope.gustCap with
  | none => (s.active.wind .park).raiseGust
  | some cap => min (s.active.wind .park).raiseGust cap

/-- A level's raise gust in force (R102). -/
def State.raiseGust (s : State) (l : Level) : Nat :=
  if l = .park then s.parkRaiseGust else (s.active.wind l).raiseGust

/-- A level's clear gust in force (R102). -/
def State.clearGust (s : State) (l : Level) : Nat :=
  if l = .park then min (s.active.wind .park).clearGust (s.parkRaiseGust - 1) else (s.active.wind l).clearGust

/-- Whether a level's raise thresholds are met (R103). -/
def State.raisesTo (s : State) (l : Level) : Bool :=
  decide (s.raiseGust l ≤ s.wind.effGust) || decide ((s.active.wind l).raiseSust ≤ s.wind.effSust)

/-- The highest level whose thresholds are met; OPEN if none (R103). -/
def State.windTarget (s : State) : Level :=
  if s.raisesTo .park then .park
  else if s.raisesTo .unload then .unload
  else if s.raisesTo .reduced then .reduced
  else if s.raisesTo .watch then .watch
  else .opened

/-- Whether the live count is below the quorum (R103, R105). -/
def State.belowQuorum (s : State) : Bool := decide (s.wind.live < s.active.floorsRecord.quorum)

/-- The target level of a tick (R103). -/
def State.targetLevel (s : State) : Level :=
  ((if s.belowQuorum then s.windTarget.max s.active.floorsRecord.blind else s.windTarget)).max s.wind.floor

/-- The level the floors ask for outside a tick: the blind level while below the quorum, then the operator floor (R105). -/
def State.floorLevel (s : State) : Level :=
  ((if s.belowQuorum then s.wind.level.max s.active.floorsRecord.blind else s.wind.level)).max s.wind.floor

/-- The clear condition of the level (R104). -/
def State.levelClear (s : State) : Bool :=
  decide (s.wind.effGust < s.clearGust s.wind.level) &&
    decide (s.wind.effSust < (s.active.wind s.wind.level).clearSust) &&
    (!s.belowQuorum || decide (s.active.floorsRecord.blind.code < s.wind.level.code)) &&
    decide (s.wind.floor.code < s.wind.level.code)

/-! ## The sweep state (R141) -/

/-- Whether the cause set holds a cause. -/
def SweepScheduler.caused (w : SweepScheduler) : Bool := w.wind || w.close || w.operator

/-- The cause set as a number: 1 for WIND, 2 for CLOSE, 4 for OPERATOR (R153). -/
def SweepScheduler.causeCode (w : SweepScheduler) : Nat :=
  (if w.wind then 1 else 0) + (if w.close then 2 else 0) + (if w.operator then 4 else 0)

/-- The sweep list as the part counts it: the cabins 1 to N of it. A cabin above N keeps its record, its mark and its place for
the time N returns, and counts toward nothing until then (R52, R141; log entry 29). -/
def State.unloadList (s : State) : List Nat := s.sweep.list.filter s.present

/-- The sweep state of the cause set, the list and the level as they stand (R141). -/
def State.sweepStateNow (s : State) : SweepState :=
  if !s.sweep.caused then .idle
  else if s.wind.level = .park then .suspended
  else if s.unloadList.isEmpty then .done
  else .active

end Sys2Proof.Machine
end

