-- ==== Sys2Proof/Machine/Governor.lean ====
section
/-! DEFINITION. The Speed Governor: screening a speed order, stale drives and substitution, the stop latch (chapter 7). -/

namespace Sys2Proof.Machine

/-- A drive's record. -/
def State.drive (s : State) (d : DriveIx) : Drive := s.governor.drives[d]

/-- The drives, ascending. -/
def driveIndices : List DriveIx := [0, 1, 2, 3, 4, 5, 6, 7]

/-! ## The screen's arithmetic (R122 to R125) -/

/-- The ms a drive earns credit for at time `now`, at most 1,000; 1,000 when it has not been screened (R122). -/
def elapsedFor (now : Nat) : Option Nat → Nat
  | none => 1000
  | some t => min (now - t) 1000

/-- The credit after earning (R122). -/
def creditAfter (accel credit e : Nat) : Nat := min (credit + accel * e) (accel * 1000)

/-- The target: the requested speed clamped to the ceilings (R123). -/
def speedTarget (r : Int) (f v : Nat) : Int := if 0 ≤ r then min r f else max r (-(v : Int))

/-- The output speed and the credit left, from the target `t`, the last forwarded speed `s` and the credit (R124). -/
def speedOutput (t s : Int) (credit : Nat) : Int × Nat :=
  if (0 < t ∧ s < 0) ∨ (t < 0 ∧ 0 < s) then (0, credit)
  else if t.natAbs ≤ s.natAbs then (t, credit)
  else
    let step := min (t.natAbs - s.natAbs) (credit / 1000)
    (if t < 0 then s - step else s + step, credit - step * 1000)

/-- The brake codes of a SPEED ORDER (R20). -/
def brakeHold : Byte := 0
def brakeFree : Byte := 1

/-- Whether R125 sets the brake: both ceilings are 0. -/
def Governor.forcesHold (g : Governor) : Bool := decide (g.ceilingF = 0) && decide (g.ceilingV = 0)

/-- The verdict on a speed order: the output speed, the brake, and the drive's credit after it. -/
structure SpeedVerdict where
  speed  : Int
  brake  : Byte
  credit : Nat
  deriving DecidableEq, Repr

/-- The steps of R122 to R125 for a request of speed `r` and brake `brake` to a drive with record `dr`. -/
def State.judgeSpeed (s : State) (dr : Drive) (r : Int) (brake : Byte) : SpeedVerdict :=
  let credit := creditAfter s.active.gov.accel dr.credit (elapsedFor s.clock.now dr.screened)
  let out := speedOutput (speedTarget r s.governor.ceilingF s.governor.ceilingV) dr.speed credit
  { speed := out.1, credit := out.2, brake := if s.governor.forcesHold then brakeHold else brake }

/-! ## Stale drives (R131, R133, R134) -/

/-- The events of a STALE notice (R134). -/
inductive StaleEvent where
  | entered
  | held
  | resumed
  deriving DecidableEq, Repr

def StaleEvent.code : StaleEvent → Byte
  | .entered => 0
  | .held => 1
  | .resumed => 2

/-- Post a STALE notice for a drive as its record stands (R134). -/
def State.postStale (s : State) (d : DriveIx) (e : StaleEvent) : State :=
  s.post .stale (decide (s.mode = .monitor)) (byte d.val) e.code (sHi (s.drive d).speed) (sLo (s.drive d).speed)
    (byte (s.drive d).subs)

/-- A supervisor order reaches the governor: the drive becomes FOLLOWING with its staleness timer started, and a drive that
was SUBSTITUTING or HELD raises STALE RESUMED (R121, R133). -/
def State.resumeDrive (s : State) (d : DriveIx) : State :=
  let dr := s.drive d
  let t := s.withDrive d { dr with state := .following, stale := some s.active.gov.staleMs }
  if dr.state = .substituting ∨ dr.state = .held then t.postStale d .resumed else t

/-! ## Screening a speed order (R121, R126, R127, R129) -/

/-- The frame forwarded amended: AMENDED set, the screen's payload, a fresh check (R9). -/
def Frame.amend (f : Frame) (payload : List Byte) : Frame :=
  Frame.build f.dest f.src f.cls (f.flags ||| flagAmended) f.seq payload

/-- Post a CLAMPED notice for a request `r` forwarded at speed `out` (R127). -/
def State.postClamped (s : State) (d : DriveIx) (r out : Int) : State :=
  s.post .clamped (decide (s.mode = .monitor))
    (byte (d.val + if s.governor.forcesHold then 8 else 0)) (sHi r) (sLo r) (sHi out) (sLo out)

/-- Screen a SPEED ORDER of speed `r` for drive `d` and forward it, amended where the verdict differs (R121 to R126). In MONITOR
mode it is forwarded unchanged and the drive's last forwarded speed is the requested one (R129); the CLAMPED notice carries the
computed output in both modes (log entry 44). -/
def State.screenSpeed (s : State) (d : DriveIx) (r : Int) (brake : Byte) (f : Frame) : State :=
  let s1 := s.resumeDrive d
  let w := s1.judgeSpeed (s1.drive d) r brake
  let sent := if s.mode = .monitor then r else w.speed
  let s2 := s1.withDrive d { s1.drive d with speed := sent, credit := w.credit, screened := some s.clock.now }
  if w.speed = r ∧ w.brake = brake then s2.offerForward .field f
  else
    let s3 := s2.postClamped d r w.speed
    s3.offerForward .field (if s.mode = .monitor then f else f.amend (sbe2 w.speed ++ [w.brake]))

/-- In MONITOR mode a SPEED ORDER to a drive that never reached the governor sets the drive's last forwarded speed and nothing
else (R35, R129). -/
def State.noteUnscreened (s : State) (d : DriveIx) (r : Int) : State :=
  s.withDrive d { s.drive d with speed := r }

/-! ## Substitution (R131, R132) -/

/-- The speed lost in a quarter tick (R132). -/
def rampStep (decel : Nat) : Nat := max 1 (decel / 4)

/-- A speed moved toward 0 by at most k (R132). -/
def towardZero (x : Int) (k : Nat) : Int :=
  if 0 ≤ x then x - min x.natAbs k else x + min x.natAbs k

/-- One ramp-down step of a SUBSTITUTING drive (R132). -/
def State.substituteStep (s : State) (d : DriveIx) : State :=
  if (s.drive d).state = .substituting then
    let v := speedTarget (towardZero (s.drive d).speed (rampStep s.active.gov.decel)) s.governor.ceilingF s.governor.ceilingV
    let brake := if v = 0 then brakeHold else brakeFree
    let s1 := s.withDrive d { s.drive d with speed := v }
    let s2 := s1.originateOrder (.substitute d) (.drive d) codeSpeedOrder (sbe2 v ++ [brake])
    let s3 := s2.withDrive d { s2.drive d with subs := min ((s2.drive d).subs + 1) 255 }
    if v = 0 then (s3.withDrive d { s3.drive d with state := .held }).postStale d .held else s3
  else s

/-- The governor's part of a quarter tick: each drive in ascending order (R132, R178). -/
def State.substituteAll (s : State) : State := driveIndices.foldl State.substituteStep s

/-- The expiry of a drive's staleness timer: the timer is left stopped, and a FOLLOWING drive enters SUBSTITUTING (R131). A
stopped timer has no expiry. -/
def State.staleExpiry (s : State) (d : DriveIx) : State :=
  match (s.drive d).stale with
  | none => s
  | some ms =>
      let t := s.advance ms
      let t' := t.withDrive d { t.drive d with stale := none }
      if (s.drive d).state = .following then
        (t'.withDrive d { t'.drive d with state := .substituting, subs := 0 }).postStale d .entered
      else t'

/-! ## The stop latch (R135, R136) -/

/-- Set the stop latch: from CLEAR, a STOP notice with F and V as they stood, and the ceilings are recomputed; `subject` is 0
for the input and 1 for a request (R135). -/
def State.setLatch (s : State) (subject : Byte) : State :=
  if s.governor.latch then s
  else
    let f := be2 s.governor.ceilingF
    let v := be2 s.governor.ceilingV
    let t := s.post .stop false subject (f.getD 0 0) (f.getD 1 0) (v.getD 0 0) (v.getD 1 0)
    (t.withGovernor { t.governor with latch := true }).recomputeCeilings

/-- Clear the stop latch and recompute the ceilings (R136). -/
def State.clearLatch (s : State) : State :=
  (s.withGovernor { s.governor with latch := false }).recomputeCeilings

end Sys2Proof.Machine
end

