-- ==== Sys2Proof/Machine/Beacon.lean ====
section
/-! DEFINITION. The beacons of the platform stations (R113 to R115). -/

namespace Sys2Proof.Machine

/-- The pattern due at both berths' stations (R113). -/
def State.duePattern (s : State) : Nat :=
  if s.sweep.close ∧ s.wind.level.code ≤ 2 then s.active.pattern 5 else s.active.pattern s.wind.level.code

/-- Bring one berth's station to the due pattern: a berth without a STATION node is sent nothing and its sent pattern becomes
none; one whose sent pattern differs is sent the due pattern (R114). -/
def State.refreshBeacon (s : State) (berth : Berth) : State :=
  match s.active.nodeOf (.station berth) with
  | none => s.withWind { s.wind with sent := s.wind.sent.set berth none }
  | some n =>
      if s.wind.sent.get berth = some s.duePattern then s
      else
        (s.originate (.beacon berth) n codeBeaconOrder [byte s.duePattern]).withWind
          { s.wind with sent := s.wind.sent.set berth (some s.duePattern) }

/-- Recompute the due pattern and send it where it differs, berth A first (R113, R114). -/
def State.refreshBeacons (s : State) : State := (s.refreshBeacon .a).refreshBeacon .b

/-- Resend the beacons wholesale: both sent patterns become none, and the due pattern goes to each STATION node (R115). -/
def State.resendBeacons (s : State) : State :=
  (s.withWind { s.wind with sent := { a := none, b := none } }).refreshBeacons

end Sys2Proof.Machine
end

