-- ==== Sys2Proof/Machine/Sweep.lean ====
section
/-! DEFINITION. The Sweep Scheduler: causes, the list, what a cabin's visit does to it, suspension and the end of a sweep
(chapter 8). -/

namespace Sys2Proof.Machine

/-- The source events of a SWEEP notice (R153). -/
inductive SweepSource where
  | level
  | alarm
  | request
  | cabin
  deriving DecidableEq, Repr

def SweepSource.code : SweepSource → Byte
  | .level => 0
  | .alarm => 1
  | .request => 2
  | .cabin => 3

/-- The three causes (R142). -/
inductive Cause where
  | wind
  | close
  | operator
  deriving DecidableEq, Repr

/-- Whether the cause set holds a cause. -/
def SweepScheduler.has (w : SweepScheduler) : Cause → Bool
  | .wind => w.wind
  | .close => w.close
  | .operator => w.operator

/-- The cause set with a cause put in or taken out. -/
def SweepScheduler.setCause (w : SweepScheduler) (v : Bool) : Cause → SweepScheduler
  | .wind => { w with wind := v }
  | .close => { w with close := v }
  | .operator => { w with operator := v }

/-- Whether a cabin is on the sweep list: its mark is PENDING, PASSED or STUCK (R75, R141). -/
def State.listed (s : State) (c : Nat) : Bool := (s.cabin c).mark.isSome

/-- The number of listed cabins marked STUCK (R153). -/
def State.stuckCount (s : State) : Nat :=
  (s.unloadList.filter fun c => decide ((s.cabin c).mark = some .stuck)).length

/-- The end of the scheduler's part of an event that it began at `before`: the state follows the causes, the list and the level,
and one SWEEP notice reports a change of the state or the causes, or a list emptied while SUSPENDED (R141, R153). -/
def State.finishSweep (s before : State) (src : SweepSource) : State :=
  let st := s.sweepStateNow
  let t := s.withSweep { s.sweep with state := st }
  if st ≠ before.sweep.state ∨ s.sweep.causeCode ≠ before.sweep.causeCode ∨
      (st = .suspended ∧ before.sweep.state = .suspended ∧ before.unloadList ≠ [] ∧ s.unloadList = []) then
    t.post .sweep false (byte (4 * before.sweep.state.code + st.code)) (byte s.sweep.causeCode) (byte s.unloadList.length)
      src.code (byte t.stuckCount)
  else t

/-! ## Joining and leaving the list (R141, R143, R144) -/

/-- Whether a cabin is to be unloaded: IN_SERVICE, and with people aboard or an UNCERTAIN count (R143). -/
def Cabin.qualifies (c : Cabin) : Bool := c.inService && (decide (0 < c.occupancy) || c.uncertain)

/-- The distance of a cabin to berth A's zone start `a` (R144). -/
def distanceTo (a n p c : Nat) : Nat := rimSub a (cabinAngle n p c)

/-- Cabins that join together, in the order they join: by distance to berth A, or by number where the position is UNKNOWN, the
fix absent or berth A without a zone (R144). The argument is in ascending cabin number. -/
def State.joinOrder (s : State) (cs : List Nat) : List Nat :=
  match s.rim.known, s.rim.fix, s.active.berth .a with
  | true, some fix, some z =>
      cs.insertionSort fun c d =>
        distanceTo z.start s.envelope.count fix.position c ≤ distanceTo z.start s.envelope.count fix.position d
  | _, _, _ => cs

/-- A cabin joins the list at the tail with the mark PENDING (R141). -/
def State.appendCabin (s : State) (c : Nat) : State :=
  (s.withSweep { s.sweep with list := s.sweep.list ++ [c] }).withCabin c { s.cabin c with mark := some .pending }

/-- A cabin leaves the list and its mark is cleared (R141). -/
def State.removeCabin (s : State) (c : Nat) : State :=
  (s.withSweep { s.sweep with list := s.sweep.list.filter (· ≠ c) }).withCabin c { s.cabin c with mark := none }

/-- The qualifying cabins 1 to N that are not on the list, in the order they join (R143). -/
def State.joining (s : State) : List Nat :=
  s.joinOrder (s.cabinNumbers.filter fun c => (s.cabin c).qualifies && !s.listed c)

/-- Every qualifying cabin joins the list (R143). -/
def State.appendQualifying (s : State) : State := s.joining.foldl State.appendCabin s

/-- A pass count becomes 0 (R143). -/
def State.zeroPasses (s : State) (c : Nat) : State := s.withCabin c { s.cabin c with passes := 0 }

/-- Build the list of a sweep that begins: each listed cabin's pass count becomes 0 (R143). -/
def State.buildList (s : State) : State :=
  let t := s.appendQualifying
  t.sweep.list.foldl State.zeroPasses t

/-- The list is emptied, and every mark and pass count cleared; the served flags are kept (R154). -/
def State.clearList (s : State) : State :=
  (s.withSweep { s.sweep with list := [] }).withCabins
    (Vector.ofFn fun i => { s.cabins[i] with mark := none, passes := 0 })

/-! ## Causes (R142, R143, R154) -/

/-- Put a cause into the set: an IDLE sweep builds its list, another appends the cabins that now qualify (R143). -/
def State.addCause (s : State) (c : Cause) : State :=
  if s.sweep.has c then s
  else
    let t := s.withSweep (s.sweep.setCause true c)
    if s.sweep.state = .idle then t.buildList else t.appendQualifying

/-- Take a cause out of the set; the last one out returns the sweep to IDLE (R154). -/
def State.removeCause (s : State) (c : Cause) : State :=
  if s.sweep.has c then
    let t := s.withSweep (s.sweep.setCause false c)
    if t.sweep.caused then t else t.clearList
  else s

/-- The Wind Assessor hears that CLOSE has entered or left the set and recomputes the beacons (R156). -/
def State.reportClose (s : State) (before : SweepScheduler) : State :=
  if s.sweep.close = before.close then s else s.refreshBeacons

/-- One cause is added by an event of the given source (R142, R143, R153, R156). -/
def State.sweepAdd (s : State) (c : Cause) (src : SweepSource) : State :=
  if s.sweep.has c then s
  else ((s.addCause c).finishSweep s src).reportClose s.sweep

/-- One cause is removed by an event of the given source (R142, R153, R154, R156). -/
def State.sweepRemove (s : State) (c : Cause) (src : SweepSource) : State :=
  if s.sweep.has c then ((s.removeCause c).finishSweep s src).reportClose s.sweep
  else s

/-- The scheduler takes a level change: WIND is added or removed by the new level, then the state is set from it (R142, R151). -/
def State.sweepLevel (s : State) : State :=
  (if 3 ≤ s.wind.level.code then s.addCause .wind else s.removeCause .wind).finishSweep s .level

/-! ## Visits (R145 to R149) -/

/-- A cabin's served flag. -/
def State.served (s : State) (c : Nat) : Bool := if c = 0 then false else slot s.sweep.served (c - 1) false

/-- Set or clear a cabin's served flag. -/
def State.setServed (s : State) (c : Nat) (v : Bool) : State :=
  if c = 0 then s else s.withSweep { s.sweep with served := s.sweep.served.setIfInBounds (c - 1) v }

/-- A cabin's cycle is complete (R146). -/
def State.sweepCycle (s : State) (c : Nat) : State :=
  let k := s.cabin c
  let aboard := decide (0 < k.occupancy) || k.uncertain
  if s.sweep.state = .idle then s.setServed c true
  else
    (if s.listed c then (if aboard then s.setServed c true else s.removeCabin c)
     else if k.inService && aboard then (s.appendCabin c).setServed c true
     else s.setServed c true).finishSweep s .cabin

/-- A cabin moves to the tail of the list (R147, R148). -/
def State.toTail (s : State) (c : Nat) : State :=
  s.withSweep { s.sweep with list := s.sweep.list.filter (· ≠ c) ++ [c] }

/-- Post a STUCK notice for a cabin at its exit from a berth (R149). -/
def State.postStuck (s : State) (c : Nat) (berth : Berth) : State :=
  s.post .stuck false (byte c) (byte (s.cabin c).passes) (byte (s.cabin c).occupancy) (flagByte (s.cabin c).uncertain)
    (byte (berth.code + 1))

/-- A pass (R148). -/
def State.sweepPass (s : State) (c : Nat) (berth : Berth) : State :=
  let n := min ((s.cabin c).passes + 1) 8
  let t := s.toTail c
  if (s.cabin c).mark = some .stuck then t.withCabin c { t.cabin c with passes := n }
  else if s.active.passes ≤ n then
    (t.withCabin c { t.cabin c with passes := n, mark := some .stuck }).postStuck c berth
  else t.withCabin c { t.cabin c with passes := n, mark := some .passed }

/-- The scheduler judges the visit that a ZONE_EXIT ends (R147). R147's table is followed, not R148's
'A LATE grant is a pass', in two cases of a grant that goes LATE at the exit: a cabin with its served flag set counts no pass, and a
cabin that is 0 and COUNTED leaves the list at once instead of at the later LOCKED report (log entry 46). -/
def State.sweepExit (s : State) (c : Nat) (berth : Berth) : State :=
  let k := s.cabin c
  if s.sweep.state = .idle ∨ s.listed c = false then s
  else
    (if decide (0 < k.occupancy) || k.uncertain then
      (if s.served c then s.toTail c else s.sweepPass c berth)
     else s.removeCabin c).finishSweep s .cabin

/-! ## Requests that touch the list (R150) -/

/-- A Set Occupancy reaches the scheduler (R150). -/
def State.sweepOccupancy (s : State) (c : Nat) : State :=
  let k := s.cabin c
  if k.occupancy = 0 then
    (if s.listed c then (s.removeCabin c).finishSweep s .cabin else s)
  else if !s.listed c && k.inService && decide (s.sweep.state ≠ .idle) then
    (s.appendCabin c).finishSweep s .cabin
  else s

/-- A change of service reaches the scheduler (R150). -/
def State.sweepService (s : State) (c : Nat) : State :=
  if !(s.cabin c).inService && s.listed c then (s.removeCabin c).finishSweep s .cabin else s

end Sys2Proof.Machine
end

