-- ==== Sys2Proof/Machine/Wind.lean ====
section
/-! DEFINITION. The Wind Assessor: samples, the ride-second tick at a channel, the level machine, the floors, and what a bank
change and a warm restart do to channels, level and beacons (chapter 6). -/

namespace Sys2Proof.Machine

/-! ## CHANNEL notices (R100) -/

/-- Post a CHANNEL notice for a channel that was in state `before` (R100). -/
def State.postChannel (s : State) (c : ChannelIx) (before : ChannelState) : State :=
  s.post .channel false (byte c.val) (byte before.code) (byte (s.wind.channels[c]).state.code)
    ((s.wind.channels[c]).node.getD 255) (byte s.liveChannels.length)

/-- Give a channel a new record, with a CHANNEL notice if its state changes (R100). -/
def State.setChannel (s : State) (c : ChannelIx) (x : Channel) : State :=
  let t := s.withChannel c x
  if x.state = (s.wind.channels[c]).state then t else t.postChannel c (s.wind.channels[c]).state

/-! ## Samples (R95) -/

/-- A channel's record with its bucket, held second and rings empty and its counts 0 (R95, R98, R109, R111). -/
def Channel.emptied (x : Channel) : Channel :=
  { x with bucketMax := 0, bucketSum := 0, bucketCount := 0, held := none, gustRing := [], sustRing := []
           sustSum := 0, filled := 0, stale := 0, warm := 0 }

/-- A STALE channel is woken: WARMING, with its stale count and warm count 0 (R95). -/
def Channel.woken (x : Channel) : Channel :=
  if x.state = .stale then { x with state := .warming, stale := 0, warm := 0 } else x

/-- The greatest wind speed the part takes (R95). -/
def maxWind : Nat := 700

/-- A sample enters the bucket: the speed clamped to 700 (R95). -/
def Channel.sampled (x : Channel) (speed direction : Nat) : Channel :=
  let v := min speed maxWind
  let y := { x with direction := direction, bucketMax := max x.bucketMax v }
  if x.bucketCount < 255 then { y with bucketSum := y.bucketSum + v, bucketCount := y.bucketCount + 1 } else y

/-- A GOOD WIND REPORT at an assigned channel (R95). An UNASSIGNED channel takes no samples (R94). -/
def State.takeSample (s : State) (c : ChannelIx) (speed direction : Nat) : State :=
  let x := s.wind.channels[c]
  if x.state = .unassigned then s
  else
    let t := s.setChannel c x.woken
    let u := t.withChannel c ((t.wind.channels[c]).sampled speed direction)
    if x.state = .stale then u.recomputeWind else u

/-! ## The ride-second tick at a channel (R96 to R98) -/

/-- The newest `k` entries of a ring with a new entry (R97). -/
def pushRing (k : Nat) (ring : List Nat) (x : Nat) : List Nat :=
  (if ring.length < k then ring else ring.tail) ++ [x]

/-- The places of the two rings (R97). -/
def gustPlaces : Nat := 3
def sustPlaces : Nat := 60

/-- A second's values are pushed into the rings, and a WARMING channel counts it (R97). -/
def Channel.push (x : Channel) (v : SecondValues) : Channel :=
  let full := sustPlaces ≤ x.sustRing.length
  let y := { x with
    gustRing := pushRing gustPlaces x.gustRing v.max
    sustRing := pushRing sustPlaces x.sustRing v.mean
    sustSum := x.sustSum + v.mean - (if full then x.sustRing.headD 0 else 0)
    filled := if full then x.filled else x.filled + 1
    held := some v }
  if x.state = .warming then
    { y with warm := x.warm + 1, state := if 3 ≤ x.warm + 1 then .live else .warming }
  else y

/-- The bucket is cleared (R96). -/
def Channel.clearBucket (x : Channel) : Channel := { x with bucketMax := 0, bucketSum := 0, bucketCount := 0 }

/-- A channel that becomes STALE: rings and held second gone, the stale count at 2 (R98). -/
def Channel.goStale (x : Channel) : Channel :=
  { x with state := .stale, gustRing := [], sustRing := [], sustSum := 0, filled := 0, held := none, warm := 0
           stale := 2 }

/-- A WARMING or LIVE channel closes the second (R96, R97, R98); another channel takes no part. -/
def Channel.closeSecond (x : Channel) : Channel :=
  match x.state with
  | .unassigned | .stale => x
  | .warming | .live =>
      if 0 < x.bucketCount then
        ({ x with stale := 0 }.push { max := x.bucketMax, mean := x.bucketSum / x.bucketCount }).clearBucket
      else if 2 ≤ x.stale then x.goStale.clearBucket
      else match x.held with
        | some v => ({ x with stale := x.stale + 1 }.push v).clearBucket
        | none => { x with stale := x.stale + 1 }.clearBucket

/-- A channel's part of a tick (R96). -/
def State.tickChannel (s : State) (c : ChannelIx) : State := s.setChannel c (s.wind.channels[c]).closeSecond

/-! ## The level machine (R103 to R108) -/

/-- The number a LEVEL notice carries in its four data bytes (R108). -/
def State.levelNumber (s : State) : Nat :=
  s.wind.effGust * 4194304 + s.wind.effSust * 4096 +
    (match s.wind.lead with
     | some c => (s.wind.channels[c]).direction
     | none => 0) * 8 + s.wind.live

/-- Post a LEVEL notice for a change from `old` (R108). -/
def State.postLevel (s : State) (old : Level) : State :=
  let d := be4 s.levelNumber
  s.post .level false (byte (8 * old.code + s.wind.level.code)) (d.getD 0 0) (d.getD 1 0) (d.getD 2 0) (d.getD 3 0)

/-- The level changes: its countdown takes the H of the level reached (0 at OPEN), a LEVEL notice is posted, and the change is
handed to the governor, the scheduler and the beacons, in this order (R103, R104, R107). -/
def State.changeLevel (s : State) (l : Level) : State :=
  let t := s.withWind { s.wind with level := l, countdown := s.active.holdDown l }
  (t.postLevel s.wind.level).recomputeCeilings.sweepLevel.refreshBeacons

/-- A level raised at least to `l`: a change if `l` is above it (R103, R105). -/
def State.raiseLevel (s : State) (l : Level) : State :=
  if s.wind.level.code < l.code then s.changeLevel l else s

/-- The floors are applied outside a tick (R105). -/
def State.applyFloors (s : State) : State := s.raiseLevel s.floorLevel

/-- The descent at a tick whose target is not above the level (R104). -/
def State.descend (s : State) : State :=
  if s.wind.level = .opened then s.withWind { s.wind with countdown := 0 }
  else if s.levelClear then
    if s.wind.countdown ≤ 1 then s.changeLevel s.wind.level.down
    else s.withWind { s.wind with countdown := s.wind.countdown - 1 }
  else s.withWind { s.wind with countdown := s.active.holdDown s.wind.level }

/-- The level's part of a tick (R103, R104). -/
def State.tickLevel (s : State) : State :=
  if s.wind.level.code < s.targetLevel.code then s.changeLevel s.targetLevel else s.descend

/-- The Wind Assessor's part of a ride-second tick: the channels in ascending index, the effective values, the level
(R96 to R104). -/
def State.windTick (s : State) : State :=
  (channelIndices.foldl State.tickChannel s).recomputeWind.tickLevel

/-- The expiry of the hold-down, as a step of its own: the clear condition holds and the countdown would reach 0, so the level
falls by one step (R104; log entry 10). -/
def State.holdDownFall (s : State) : State :=
  if s.wind.level ≠ .opened ∧ s.levelClear ∧ s.wind.countdown ≤ 1 then s.changeLevel s.wind.level.down else s

/-- One channel closes its second as a step of its own, when that brings it to state `st`; the effective values follow and the
floors hold (R97, R98, R101, R105; log entry 10). -/
def State.channelStep (s : State) (c : ChannelIx) (st : ChannelState) : State :=
  let x := s.wind.channels[c]
  if x.closeSecond.state = st ∧ x.state ≠ st then (s.setChannel c x.closeSecond).recomputeWind.applyFloors else s

/-! ## Bank changes (R109, R110, R115) -/

/-- A channel after a bank change that gives it node `n` (R109). -/
def Channel.reassigned (x : Channel) (n : Option Byte) : Channel :=
  match n with
  | none => Channel.unassigned
  | some m => if x.node = some m then x else { Channel.unassigned with state := .warming, node := some m }

/-- A channel is compared with the active bank's ANEMOMETER entries (R109). -/
def State.reassignChannel (s : State) (c : ChannelIx) : State :=
  s.setChannel c ((s.wind.channels[c]).reassigned (s.active.nodeOf (.anemometer c)))

/-- Where the floors raise no level, the countdown is trimmed to the new bank's H (R110). -/
def State.trimCountdown (s : State) : State :=
  s.withWind { s.wind with countdown := min s.wind.countdown (s.active.holdDown s.wind.level) }

/-- The Wind Assessor takes a new active bank (R109, R110, R115). -/
def State.windBankChange (s : State) : State :=
  let t := (channelIndices.foldl State.reassignChannel s).recomputeWind
  (if t.wind.level.code < t.floorLevel.code then t.applyFloors else t.trimCountdown).resendBeacons

/-! ## Warm restart (R111) -/

/-- A channel at warm restart: an assigned one becomes WARMING, emptied, its last direction kept (R111). -/
def Channel.restarted (x : Channel) : Channel :=
  if x.state = .unassigned then x else { x.emptied with state := .warming }

/-- The Wind Assessor at warm restart: no CHANNEL notice, the floors applied, the beacons resent (R111, R115). -/
def State.windRestart (s : State) : State :=
  (s.withWind { s.wind with
    channels := Vector.ofFn fun c => (s.wind.channels[c]).restarted }).recomputeWind.applyFloors.resendBeacons

end Sys2Proof.Machine
end

