-- ==== Sys2Proof/Machine/Register.lean ====
section
/-! DEFINITION. The Cabin Register and the Boarding Screen: door and count reports, grants from release to lock, the door and
gate screens, auto-withdraw and late doors (chapters 4 and 5). -/

namespace Sys2Proof.Machine

/-! ## REFUSED notices (R26) -/

/-- The subject of a REFUSED notice about a frame (R26). -/
def Frame.refusedSubject (f : Frame) : Byte :=
  match f.kind with
  | .doorOrder | .doorReport | .countReport => f.payload.headD 0
  | .speedOrder | .gateOrder | .beaconOrder => f.dest
  | .rimReport | .windReport | .gateReport | .request | .reply | .notice | .other => f.src

/-- Post a REFUSED notice about a frame (R26). -/
def State.postRefused (s : State) (r : Reason) (monitor : Bool) (f : Frame) : State :=
  s.post .refused monitor f.refusedSubject (byte r.code) f.cls f.dest f.src

/-- A screen refuses an order travelling toward the field: it is dropped, or in MONITOR mode forwarded unchanged with the notice
flagged (R32, R35, R73). -/
def State.refuseOrder (s : State) (r : Reason) (f : Frame) : State :=
  if s.mode = .monitor then (s.postRefused r true f).offerForward .field f else s.postRefused r false f

/-! ## CABIN notices (R67) -/

/-- The causes of a CABIN notice (R67). -/
inductive CabinCause where
  | door
  | count
  | cycle
  | request
  deriving DecidableEq, Repr

def CabinCause.code : CabinCause → Byte
  | .door => 0
  | .count => 1
  | .cycle => 2
  | .request => 3

/-- Data byte 3 of a CABIN notice (R67). -/
def State.cabinBits (s : State) (c : Nat) : Nat :=
  (if (s.cabin c).uncertain then 1 else 0) + (if (s.cabin c).inService then 0 else 2) +
    (if (s.cabin c).assist then 4 else 0) + (if s.holdsGrant c then 8 else 0)

/-- Post a CABIN notice with the cabin's record as it stands (R67). -/
def State.postCabin (s : State) (c : Nat) (e : CabinCause) : State :=
  s.post .cabin false (byte c) e.code (byte (s.cabin c).door.code) (byte (s.cabin c).occupancy) (byte (s.cabinBits c))

/-! ## The end of a grant (R61, R79, R80) -/

/-- The register takes a completed cycle: an ASSIST cycle with people aboard sets assist aboard, and CABIN CYCLE is raised
(R61). -/
def State.registerCycle (s : State) (c : Nat) (k : GrantKind) : State :=
  (if k = .assist ∧ 0 < (s.cabin c).occupancy then s.withCabin c { s.cabin c with assist := true } else s).postCabin c .cycle

/-- A grant ends with its cycle complete: the slot is freed, the register and the scheduler are told, and the conditions and
ceilings are recomputed (R80). -/
def State.endGrant (s : State) (berth : Berth) (g : Grant) : State :=
  ((((s.withGrant berth none).registerCycle g.cabin g.kind).sweepCycle g.cabin)).recomputeBoarding

/-- The Boarding Screen takes a door report of a cabin (R79). -/
def State.boardDoor (s : State) (c : Nat) (d : DoorState) : State :=
  match s.grantOf c with
  | some (berth, g) => if d = .locked then s.endGrant berth g else s.recomputeBoarding
  | none => s.recomputeBoarding

/-- The register takes a DOOR REPORT: the door state, a CABIN notice if it changed, and the Boarding Screen's part (R55). -/
def State.takeDoor (s : State) (c : Nat) (d : DoorState) : State :=
  let t := s.withCabin c { s.cabin c with door := d }
  (if d = (s.cabin c).door then t else t.postCabin c .door).boardDoor c d

/-! ## Counts (R57, R58, R62) -/

/-- The greatest occupancy and the greatest count of a report (R57). -/
def maxOccupancy : Nat := 63

/-- A cabin's record after a count (R57, R61). -/
def Cabin.counted (k : Cabin) (boarded alighted : Nat) : Cabin :=
  let inn := min boarded maxOccupancy
  let out := min alighted maxOccupancy
  let k' :=
    if k.occupancy + inn < out then { k with occupancy := 0, uncertain := true }
    else if maxOccupancy < k.occupancy + inn - out then { k with occupancy := maxOccupancy, uncertain := true }
    else { k with occupancy := k.occupancy + inn - out }
  if k'.occupancy = 0 then { k' with assist := false } else k'

/-- Originate an entry gate close to a berth's station (R62, R81). -/
def State.closeEntry (s : State) (berth : Berth) : State :=
  s.originateOrder (.gateClose berth) (.station berth) codeGateOrder [0, 1]

/-- The register takes a COUNT REPORT from berth `berth`'s station; `f` is the report (R57, R58, R62). -/
def State.takeCount (s : State) (berth : Berth) (c boarded alighted : Nat) (f : Frame) : State :=
  let k := (s.cabin c).counted boarded alighted
  let t := s.withCabin c k
  let u := if k.occupancy = (s.cabin c).occupancy ∧ k.uncertain = (s.cabin c).uncertain then t else t.postCabin c .count
  if (s.board.grants.get berth).any (fun g => decide (g.cabin = c)) then
    if u.loadLimit ≤ k.occupancy then u.closeEntry berth else u
  else u.postRefused .countUngranted false f

/-! ## Requests on a cabin (R64, R65) -/

/-- Set Service on a cabin (R64). -/
def State.setService (s : State) (c : Nat) (v : Bool) : State :=
  if v = (s.cabin c).inService then s
  else ((s.withCabin c { s.cabin c with inService := v }).postCabin c .request).sweepService c

/-- Set Occupancy on a cabin (R65). -/
def State.setOccupancy (s : State) (c : Nat) (n : Nat) : State :=
  let k : Cabin := { s.cabin c with
    occupancy := n, uncertain := false, assist := if n = 0 then false else (s.cabin c).assist }
  let t := s.withCabin c k
  (if k = s.cabin c then t else t.postCabin c .request).sweepOccupancy c

/-! ## Gate reports (R72) -/

/-- A GATE REPORT sets both gates of the berth's picture (R72). -/
def State.takeGates (s : State) (berth : Berth) (entry exit : GateState) : State :=
  s.withBoard { s.board with gates := s.board.gates.set berth { entry := entry, exit := exit } }

/-! ## The door screen (R73 to R78) -/

/-- The zone of a berth of the active bank and a cabin's arc in it, from the last fix (R42). -/
def State.arcOf (s : State) (berth : Berth) (c : Nat) : Option (BerthEntry × Nat) :=
  (s.active.berth berth).map fun z => (z, arcAt z s.envelope.count s.lastFix.position c)

/-- Check 6 for a STANDARD release (R74). -/
def State.shortOfWithdraw (s : State) (berth : Berth) (c : Nat) : Bool :=
  match s.arcOf berth c with
  | some (z, arc) => decide (arc < z.length - z.margin)
  | none => false

/-- Check 8 (R74). -/
def State.levelAllows (s : State) (k : GrantKind) : Bool :=
  match k with
  | .standard => decide (s.wind.level ≠ .park)
  | .assist => decide (s.wind.level.code ≤ 1)

/-- The greatest absolute speed check 11 allows at a berth (R74). -/
def State.releaseSpeed (s : State) (berth : Berth) (k : GrantKind) : Nat :=
  match k with
  | .standard => ((s.active.berth berth).map BerthEntry.creep).getD 0
  | .assist => s.active.gov.tolerance

/-- What the release screen answers: the berth of the grant to record, or the reason of the first check that fails (R74). -/
inductive ReleaseVerdict where
  | granted (berth : Berth)
  | refused (reason : Reason)
  deriving DecidableEq, Repr

/-- Checks 6 to 11 for a cabin in a berth's zone (R74, R75). -/
def State.judgeReleaseAt (s : State) (c : Nat) (k : GrantKind) (berth : Berth) : ReleaseVerdict :=
  if k = .standard ∧ s.shortOfWithdraw berth c = false then .refused .pastWithdraw
  else if (s.board.grants.get berth).isSome ∨ s.holdsGrant c then .refused .berthBusy
  else if s.levelAllows k = false then .refused .level
  else if s.boardingClosed ∧ s.listed c = false then .refused .sweepClosed
  else if s.lastFix.speed < 0 then .refused .reverse
  else if s.releaseSpeed berth k < s.lastFix.speed.natAbs then
    .refused (match k with
      | .standard => .tooFast
      | .assist => .notStopped)
  else .granted berth

/-- The release screen's checks 2 to 11, in order (R74, R75). -/
def State.judgeRelease (s : State) (c : Nat) (k : GrantKind) : ReleaseVerdict :=
  if s.governor.latch then .refused .stopLatched
  else if s.rim.known = false then .refused .positionUnknown
  else if s.present c = false ∨ (s.cabin c).inService = false then .refused .notInService
  else match s.reported c with
    | none => .refused .notInZone
    | some berth => s.judgeReleaseAt c k berth

/-- A passed release records a grant; the changed conditions go to the governor (R76). -/
def State.recordGrant (s : State) (berth : Berth) (c : Nat) (k : GrantKind) : State :=
  (s.withGrant berth (some { cabin := c, kind := k, state := .granted, since := s.stamp })).recomputeBoarding

/-- The door screen: a RELEASE is judged, a LOCK is forwarded (R73 to R78). -/
def State.screenDoor (s : State) (c : Nat) (release : Bool) (k : GrantKind) (f : Frame) : State :=
  if release then
    match s.judgeRelease c k with
    | .granted berth => (s.recordGrant berth c k).offerForward .field f
    | .refused r => s.refuseOrder r f
  else s.offerForward .field f

/-! ## The gate screen (R89, R90) -/

/-- Why an order to open a berth's entry gate is refused; `none` when it passes (R89). -/
def State.judgeEntryOpen (s : State) (berth : Berth) : Option Reason :=
  if s.boardingClosed then some .gateClosedBoarding
  else if s.governor.latch then some .stopLatched
  else match s.board.grants.get berth with
    | none => some .noGrant
    | some g =>
        if g.state ≠ .granted then some .noGrant
        else if s.loadLimit ≤ (s.cabin g.cabin).occupancy then some .loadLimit
        else none

/-- Why an order to open a berth's exit gate is refused; `none` when it passes (R90). -/
def State.judgeExitOpen (s : State) (berth : Berth) : Option Reason :=
  if (s.board.grants.get berth).isSome then none else some .noGrant

/-- The gate screen (R89, R90). -/
def State.screenGate (s : State) (berth : Berth) (exit close : Bool) (f : Frame) : State :=
  if close then s.offerForward .field f
  else match (if exit then s.judgeExitOpen berth else s.judgeEntryOpen berth) with
    | none => s.offerForward .field f
    | some r => s.refuseOrder r f

/-! ## Auto-withdraw and leaving the berth (R81, R82) -/

/-- WITHDRAW_POINT of a cabin at a berth: a GRANTED STANDARD grant is withdrawn (R81). -/
def State.boardWithdraw (s : State) (c : Nat) (berth : Berth) : State :=
  match s.board.grants.get berth with
  | none => s
  | some g =>
      if g.cabin = c ∧ g.kind = .standard ∧ g.state = .granted then
        let t := s.originateOrder (.doorLock berth) .hub codeDoorOrder [byte c, 1, 0]
        let u := if (s.board.gates.get berth).entry = .closed then t else t.closeEntry berth
        (u.withGrant berth (some { g with state := .withdrawing })).recomputeBoarding
      else s

/-- ZONE_EXIT of a cabin at a berth: a grant there ends if the door is LOCKED and becomes LATE if not (R82). -/
def State.boardExit (s : State) (c : Nat) (berth : Berth) : State :=
  match s.board.grants.get berth with
  | none => s
  | some g =>
      if g.cabin = c then
        if (s.cabin c).door = .locked then s.endGrant berth g
        else (s.withGrant berth (some { g with state := .late })).recomputeBoarding
      else s

end Sys2Proof.Machine
end

