-- ==== Sys2Proof/Machine/Rim.lean ====
section
/-! DEFINITION. The Rim Tracker: rim reports, the encoder watch timer, memberships and zone events (chapter 3). -/

namespace Sys2Proof.Machine

/-! ## Membership (R41, R42) -/

/-- Whether a cabin of a wheel of `n` cabins at rim position `p` is in a zone: its arc is at most L (R42). -/
def inZone (z : Option BerthEntry) (n p c : Nat) : Bool := z.any fun z => decide (arcAt z n p c ≤ z.length)

/-- A cabin's membership against a bank's berths (R42). -/
def Bank.membership (k : Bank) (n p c : Nat) : Option Berth :=
  if inZone (k.berth .a) n p c then some .a
  else if inZone (k.berth .b) n p c then some .b
  else none

/-- Whether a cabin is at or past the withdraw point of a zone (R42, R45). -/
def pastWithdraw (z : BerthEntry) (n p c : Nat) : Bool := decide (z.length - z.margin ≤ arcAt z n p c)

/-! ## Zone events (R43 to R46) -/

/-- The side of a ZONE_EXIT (R46). -/
inductive Side where
  | far
  | near
  deriving DecidableEq, Repr

/-- The zone events (R43). -/
inductive ZoneEvent where
  | exit (cabin : Nat) (berth : Berth) (side : Side)
  | entry (cabin : Nat) (berth : Berth)
  | withdraw (cabin : Nat) (berth : Berth)
  deriving DecidableEq, Repr

/-- The side of an exit from a zone, from the cabin's new arc for it (R46). -/
def exitSide (z : Option BerthEntry) (n p c : Nat) : Side :=
  match z with
  | some z => if arcAt z n p c < 524288 then .far else .near
  | none => .far

/-- What one report makes of one cabin: its new membership, its new withdraw mark, and the events it raises, in the order
ZONE_EXIT, ZONE_ENTRY, WITHDRAW_POINT. -/
structure CabinMove where
  member : Option Berth
  mark   : Bool
  events : List ZoneEvent
  deriving DecidableEq, Repr

/-- The rules R43 to R46 for one cabin, from its last-known membership `old` and its mark, at a report of position `p` and
speed `v`. -/
def moveCabin (k : Bank) (n p : Nat) (v : Int) (c : Nat) (old : Option Berth) (mark : Bool) : CabinMove :=
  let new := k.membership n p c
  let changed := decide (new ≠ old)
  let mark1 := if changed then false else mark
  let exits := match old with
    | some berth => if changed then [ZoneEvent.exit c berth (exitSide (k.berth berth) n p c)] else []
    | none => []
  match new with
  | none => { member := none, mark := mark1, events := exits }
  | some berth =>
      let enters := if changed then [ZoneEvent.entry c berth] else []
      let point := (k.berth berth).any (fun z => pastWithdraw z n p c) && decide (0 ≤ v) && !mark1
      { member := some berth, mark := mark1 || point
        events := exits ++ enters ++ (if point then [ZoneEvent.withdraw c berth] else []) }

/-- What a report of position `p` and speed `v` makes of the cabin in slot `i`; a slot above N is left as it stands (R43). -/
def State.moveSlot (s : State) (p : Nat) (v : Int) (i : Fin 64) : CabinMove :=
  if i.val < s.envelope.count then
    moveCabin s.active s.envelope.count p v (i.val + 1) s.rim.lastKnown[i] s.rim.marks[i]
  else { member := s.rim.lastKnown[i], mark := s.rim.marks[i], events := [] }

/-- The zone events of a report, cabins in ascending number (R43). -/
def State.zoneEvents (s : State) (p : Nat) (v : Int) : List ZoneEvent :=
  (List.finRange 64).flatMap fun i => (s.moveSlot p v i).events

/-- The register stamps the cabin's last exit (R54). -/
def State.stampExit (s : State) (c : Nat) : State := s.withCabin c { s.cabin c with lastExit := some s.stamp }

/-- A zone event is handed to the blocks that take it: an exit to the register, the Boarding Screen and then the scheduler
(R43, R147). -/
def State.takeZoneEvent (s : State) (e : ZoneEvent) : State :=
  match e with
  | .exit c berth _ => ((s.stampExit c).boardExit c berth).sweepExit c berth
  | .entry c _ => s.setServed c false
  | .withdraw c berth => s.boardWithdraw c berth

/-- A GOOD RIM REPORT: the last fix, the watch timer, KNOWN, the zone events against the last-known memberships (which a loss
of position kept), and then every cabin's membership and mark (R37, R43, R48). -/
def State.takeGoodRim (s : State) (p : Nat) (v : Int) : State :=
  let t := (s.withRim { s.rim with
    known := true, fix := some { position := p, speed := v }, watch := some s.active.gov.encoderMs }).recomputeCeilings
  let u := (s.zoneEvents p v).foldl State.takeZoneEvent t
  u.withRim { u.rim with
    lastKnown := Vector.ofFn fun i => (s.moveSlot p v i).member
    marks := Vector.ofFn fun i => (s.moveSlot p v i).mark }

/-- The position becomes UNKNOWN and the watch timer stops; the fix, the last-known memberships and the marks are kept
(R38, R39). -/
def State.losePosition (s : State) : State :=
  (s.withRim { s.rim with known := false, watch := none }).recomputeCeilings

/-- The expiry of the encoder watch timer; a stopped timer has none (R38). -/
def State.encoderExpiry (s : State) : State :=
  match s.rim.watch with
  | none => s
  | some ms => (s.advance ms).losePosition

/-! ## Bank changes (R49) -/

/-- A cabin's membership recomputed at a bank change: NONE while the last fix is absent (R49). -/
def State.rebank (s : State) (i : Fin 64) : Option Berth :=
  match s.rim.fix with
  | none => none
  | some fix =>
      if i.val < s.envelope.count then s.active.membership s.envelope.count fix.position (i.val + 1) else none

/-- The Rim Tracker takes a new active bank: memberships recomputed with no zone event, and a mark kept only where the
membership is (R49). -/
def State.rimBankChange (s : State) : State :=
  s.withRim { s.rim with
    lastKnown := Vector.ofFn s.rebank
    marks := Vector.ofFn fun i => s.rim.marks[i] && decide (s.rebank i = s.rim.lastKnown[i]) }

end Sys2Proof.Machine
end

