-- ==== Sys2Proof/Machine/Commit.lean ====
section
/-! DEFINITION. The Policy Store: the commit walk, the swap, the other ends of a commit, the revert, and the warm restart that
may wait for them (chapter 9, R186). -/

namespace Sys2Proof.Machine

/-! ## COMMIT notices (R172) -/

/-- The outcome of a commit with the data its COMMIT notice carries besides the banks (R172). -/
inductive CommitEnd where
  | committed
  | rejected (check table index : Nat)
  | timedOut
  /-- `state` is the commit's state when it ended; `byRevert` names the bank active before a Revert to Floor that ended it. -/
  | aborted (state : CommitState) (byRevert : Option BankNo)
  deriving DecidableEq, Repr

/-- Post a COMMIT notice (R172). -/
def State.postCommit (s : State) (e : CommitEnd) : State :=
  let active := byte s.policy.active.code
  let staging := byte s.policy.staging.code
  match e with
  | .committed => s.post .commit false 0 active 0 0 staging
  | .rejected check table index => s.post .commit false 1 active (byte check) (byte table) (byte index)
  | .timedOut => s.post .commit false 2 active 2 0 staging
  | .aborted st none => s.post .commit false 3 active (byte st.code) 0 staging
  | .aborted st (some before) => s.post .commit false 3 (byte before.code) (byte st.code) 1 staging

/-! ## The commit walk (R164) -/

/-- A fault of the walk: the check, the table and the entry index (255 where something is missing). -/
structure WalkFault where
  check : Nat
  table : Nat
  index : Nat
  deriving DecidableEq, Repr

/-- The index reported where the fault is that something is missing (R164). -/
def missing : Nat := 255

/-- The first index, ascending, at which `bad` holds. -/
def firstBad (bad : Nat → Bool) (n : Nat) : Option Nat := (List.range n).find? bad

/-- Check 1: the envelope is LOCKED. -/
def walkEnvelope (e : Envelope) : Option WalkFault :=
  if e.locked then none else some { check := 1, table := 16, index := 0 }

/-- Whether two roles may not both be held: the same index twice, or SUPERVISOR, ENCODER or HUB twice (R164). -/
def Role.clashes (r q : Role) : Bool := r == q

/-- Whether entry `i` of NODE_ROLES is at fault: its node or its role is that of an earlier present entry, or its node is the
part's own (R164). -/
def Bank.roleBad (k : Bank) (own : Byte) (i : Nat) : Bool :=
  match slot k.roles i none with
  | none => false
  | some e =>
      e.node == own ||
        ((k.roles.toList.take i).filterMap id).any fun d => d.node == e.node || d.role.clashes e.role

/-- Whether an entry holds a DRIVE role, and an ANEMOMETER role. -/
def Role.isDrive : Role → Bool
  | .drive _ => true
  | .supervisor | .encoder | .anemometer _ | .station _ | .hub => false

def Role.isAnemometer : Role → Bool
  | .anemometer _ => true
  | .supervisor | .encoder | .drive _ | .station _ | .hub => false

/-- Check 2, on NODE_ROLES. -/
def walkRoles (k : Bank) (e : Envelope) : Option WalkFault :=
  match firstBad (k.roleBad e.own) 16 with
  | some i => some { check := 2, table := 1, index := i }
  | none =>
      if (k.nodeOf .encoder).isSome && (k.nodeOf .hub).isSome && k.roleEntries.any (fun e => e.role.isDrive) &&
          k.floors.all (fun f => decide (f.quorum ≤ (k.roleEntries.filter fun e => e.role.isAnemometer).length)) then none
      else some { check := 2, table := 1, index := missing }

/-- Check 3, on TREATMENT_MAP: ranges in order, and the two defaults present, each reported with its own index. -/
def walkMap (k : Bank) : Option WalkFault :=
  match firstBad (fun i => (slot k.map i none).any fun m => decide (m.srcHi < m.srcLo) || decide (m.dstHi < m.dstLo)) 24 with
  | some i => some { check := 3, table := 2, index := i }
  | none =>
      if k.defField.isNone then some { check := 3, table := 2, index := 24 }
      else if k.defSup.isNone then some { check := 3, table := 2, index := 25 }
      else none

/-- Two zones are disjoint: no position lies in both (R164). -/
def disjointZones (x y : BerthEntry) : Bool :=
  decide (x.length < rimSub y.start x.start) && decide (y.length < rimSub x.start y.start)

/-- Whether a present berth is sound in itself: M at most L - 512, and its station node holds its STATION role (R164). -/
def Bank.berthSound (k : Bank) (b : Berth) (z : BerthEntry) : Bool :=
  decide (z.margin + 512 ≤ z.length) && decide (k.roleOf z.station = some (.station b))

/-- Check 4, on BERTHS. A fault of both zones, and a STATION entry for an absent berth B, are reported with berth B's index. -/
def walkBerths (k : Bank) (e : Envelope) : Option WalkFault :=
  let at_ (i : Nat) : Option WalkFault := some { check := 4, table := 3, index := i }
  match k.berths.a with
  | none => at_ missing
  | some za =>
      if k.berthSound .a za = false then at_ 0
      else match k.berths.b with
        | none =>
            if e.berths = some 2 then at_ missing
            else if (k.nodeOf (.station .b)).isSome then at_ 1
            else none
        | some zb =>
            if e.berths = some 2 ∧ k.berthSound .b zb ∧ disjointZones za zb then none else at_ 1

/-- Whether entry `i` of WIND_LEVELS is at fault: a raise value below the one before, or a clear value not below its raise. -/
def Bank.windBad (k : Bank) (i : Nat) : Bool :=
  match slot k.windLevels i none with
  | none => false
  | some w =>
      decide (w.raiseGust ≤ w.clearGust) || decide (w.raiseSust ≤ w.clearSust) ||
        (decide (0 < i) && (slot k.windLevels (i - 1) none).any fun v =>
          decide (w.raiseGust < v.raiseGust) || decide (w.raiseSust < v.raiseSust))

/-- Check 5, on WIND_LEVELS and WIND_FLOORS. -/
def walkWind (k : Bank) : Option WalkFault :=
  match firstBad (fun i => (slot k.windLevels i none).isNone || k.windBad i) 4 with
  | some i =>
      some { check := 5, table := 4, index := if (slot k.windLevels i none).isNone then missing else i }
  | none => if k.floors.isNone then some { check := 5, table := 5, index := missing } else none

/-- Check 6, on LEVEL_CEILINGS_AND_LIMITS. -/
def walkLimits (k : Bank) (e : Envelope) : Option WalkFault :=
  match firstBad (fun i => (slot k.limits i none).all fun l => decide (e.seats < l.load)) 5 with
  | some i => some { check := 6, table := 6, index := if (slot k.limits i none).isNone then missing else i }
  | none => none

/-- Check 7: the records that must be present, in the order the rule names them. -/
def walkRecords (k : Bank) : Option WalkFault :=
  if k.governor.isNone then some { check := 7, table := 8, index := missing }
  else if k.passLimit.isNone then some { check := 7, table := 9, index := missing }
  else if k.flushMs.isNone then some { check := 7, table := 10, index := missing }
  else if k.beacons.toList.any Option.isNone then some { check := 7, table := 7, index := missing }
  else none

/-- The commit walk: the first failure in the order of the checks, `none` when every check passes (R164). -/
def commitWalk (k : Bank) (e : Envelope) : Option WalkFault :=
  (walkEnvelope e).orElse fun _ => (walkRoles k e).orElse fun _ => (walkMap k).orElse fun _ =>
    (walkBerths k e).orElse fun _ => (walkWind k).orElse fun _ => (walkLimits k e).orElse fun _ => walkRecords k

/-! ## Warm restart (R186) -/

/-- The Frame Path at warm restart: the queues, the run count and the counters; staging points and transmissions are left
(R19). -/
def FramePath.restarted (p : FramePath) : FramePath :=
  { p with supForward := [], part := [], fldForward := [], origin := [], runCount := 0, fieldSeq := 0, supSeq := 0 }

/-- The Notice Unit at warm restart; what the restart raises waits for the close of the event (R181, R186). -/
def NoticeUnit.restarted : NoticeUnit := { NoticeUnit.reset with restarting := true }

/-- The Boarding Screen at warm restart: grants cleared, gate pictures UNKNOWN (R93). -/
def BoardingScreen.restarted (b : BoardingScreen) : BoardingScreen :=
  { b with grants := { a := none, b := none }, gates := { a := .unknown, b := .unknown } }

/-- The restart's steps are over: from here notices go straight to the Notice Unit again. -/
def State.endRestart (s : State) : State := s.withNotices { s.notices with restarting := false }

/-- The warm restart as a whole, in the order of R186: the Frame Path and the Notice Unit, the Rim Tracker, the Boarding Screen,
the Wind Assessor, the served flags, and the recomputed conditions and ceilings. -/
def State.warmRestart (s : State) : State :=
  let s1 := (s.withPath s.path.restarted).withNotices NoticeUnit.restarted
  let s2 := (s1.withRim RimTracker.reset).withBoard s1.board.restarted
  let s3 := s2.windRestart
  let s4 := s3.withSweep { s3.sweep with served := Vector.replicate 64 false }
  s4.recomputeBoarding.endRestart

/-! ## The ends of a commit (R165 to R172) -/

/-- The commit is over: IDLE, no commit bank, the timer stopped (R165, R166). -/
def PolicyStore.endCommit (p : PolicyStore) : PolicyStore :=
  { p with commit := .idle, commitBank := none, timer := none }

/-- Whether a commit is in flight (R171). -/
def State.inFlight (s : State) : Bool := decide (s.policy.commit ≠ .idle)

/-- A deferred warm restart is carried out, and its mark cleared (R171). -/
def State.carryOutDeferred (s : State) : State :=
  if s.policy.deferred then (s.withPolicy { s.policy with deferred := false }).warmRestart else s

/-- The commit ends without a change of bank: a deferred restart first, then the COMMIT notice (R165, R168, R169, R171). -/
def State.finishCommit (s : State) (e : CommitEnd) : State :=
  (s.withPolicy s.policy.endCommit).carryOutDeferred.postCommit e

/-- The blocks take a new active bank, in the order of R167. -/
def State.takeBank (s : State) : State := s.rimBankChange.windBankChange.recomputeBoarding

/-- The banks after a swap that makes `b` active (R158, R166). -/
def PolicyStore.swapTo (p : PolicyStore) (b : LoadBank) : PolicyStore :=
  { p.endCommit with active := b.toBankNo, staging := b.other }

/-- The swap (R166, R167): with the deferred restart clear, COMMIT is posted before the blocks take the bank; with it set, the
blocks take the bank, the restart is carried out, and COMMIT follows (R171). -/
def State.swapBanks (s : State) : State :=
  match s.policy.commitBank with
  | none => s
  | some b =>
      let t := s.withPolicy (s.policy.swapTo b)
      if s.policy.deferred then t.takeBank.carryOutDeferred.postCommit .committed
      else (t.postCommit .committed).takeBank

/-- The safe point: a PENDING commit and an empty grant table (R165). -/
def State.atSafePoint (s : State) : Bool := decide (s.policy.commit = .pending) && s.noGrants

/-- The swap at the safe point (R165, R166). -/
def State.trySwap (s : State) : State := if s.atSafePoint then s.swapBanks else s

/-- After an event that may have ended a grant: if the grant table held one at `before` and holds none now, the Policy Store is
told, and a PENDING commit is swapped in (R165). -/
def State.afterGrants (s before : State) : State :=
  if !before.noGrants && s.noGrants then s.trySwap else s

/-- The bank being committed. -/
def State.commitBankTables (s : State) : Bank :=
  match s.policy.commitBank with
  | some .one => s.policy.bank1
  | some .two => s.policy.bank2
  | none => floorBank

/-- The completion of walk number `w`: discarded unless it is the walk in progress (R163); a failed walk ends the commit
REJECTED, a passed one makes it PENDING, and swaps at once where no grant is held (R165). -/
def State.walkCompletion (s : State) (w : Nat) : State :=
  if s.policy.commit = .walking ∧ s.policy.walk = w then
    match commitWalk s.commitBankTables s.envelope with
    | some f => s.finishCommit (.rejected f.check f.table f.index)
    | none => (s.withPolicy { s.policy with commit := .pending }).trySwap
  else s

/-- The expiry of the commit timer ends a PENDING commit TIMED_OUT (R168). -/
def State.commitExpiry (s : State) : State :=
  match s.policy.timer with
  | none => s
  | some ms => if s.policy.commit = .pending then (s.advance ms).finishCommit .timedOut else s

/-- Bank 0 becomes active and the blocks take it, if a loaded bank was active (R170). -/
def State.toFloor (s : State) : State :=
  if s.policy.active = .floor then s else (s.withPolicy { s.policy with active := .floor }).takeBank

/-- Revert to Floor (R170): a commit in flight ends ABORTED, before the revert while no restart is deferred, and otherwise after
the revert and the restart. -/
def State.revert (s : State) : State :=
  if s.inFlight then
    let e := CommitEnd.aborted s.policy.commit (some s.policy.active)
    let t := s.withPolicy s.policy.endCommit
    if s.policy.deferred then t.toFloor.carryOutDeferred.postCommit e
    else (t.postCommit e).toFloor
  else s.toFloor

end Sys2Proof.Machine
end

