-- ==== Sys2Proof/Machine/Tables.lean ====
section
/-! DEFINITION. The tables as requests read and write them: the bytes of every entry, the ranges Write Staging enforces, and the
capability directory (R68, R92, R116, R138, R156, R160 to R162, R174, R175). -/

namespace Sys2Proof.Machine

/-! ## The tables -/

/-- The tables of the directory, in its order (R175). -/
inductive Table where
  | nodeRoles
  | treatmentMap
  | berths
  | windLevels
  | windFloors
  | ceilingsAndLimits
  | beaconPatterns
  | governor
  | sweep
  | noticeParams
  | envelope
  | cabinRegister
  | grants
  | windChannels
  | drives
  | sweepList
  deriving DecidableEq, Repr

/-- The tables in the directory's order (R175). -/
def allTables : List Table :=
  [.nodeRoles, .treatmentMap, .berths, .windLevels, .windFloors, .ceilingsAndLimits, .beaconPatterns, .governor, .sweep,
   .noticeParams, .envelope, .cabinRegister, .grants, .windChannels, .drives, .sweepList]

/-- A table's identifier (R160, R175). -/
def Table.ident : Table → Nat
  | .nodeRoles => 1
  | .treatmentMap => 2
  | .berths => 3
  | .windLevels => 4
  | .windFloors => 5
  | .ceilingsAndLimits => 6
  | .beaconPatterns => 7
  | .governor => 8
  | .sweep => 9
  | .noticeParams => 10
  | .envelope => 16
  | .cabinRegister => 17
  | .grants => 18
  | .windChannels => 19
  | .drives => 20
  | .sweepList => 21

/-- The table of an identifier. -/
def Table.ofIdent (n : Nat) : Option Table := allTables.find? fun t => t.ident == n

/-- The size in bytes of a table's largest entry as Read Table returns it (R175). -/
def Table.entrySize : Table → Nat
  | .nodeRoles => 4
  | .treatmentMap => 9
  | .berths => 13
  | .windLevels => 12
  | .windFloors => 4
  | .ceilingsAndLimits => 5
  | .beaconPatterns => 3
  | .governor => 13
  | .sweep => 3
  | .noticeParams => 4
  | .envelope => 20
  | .cabinRegister => 15
  | .grants => 10
  | .windChannels => 13
  | .drives => 13
  | .sweepList => 7

/-- The number of entries of a table (R175). -/
def Table.entries : Table → Nat
  | .nodeRoles => 16
  | .treatmentMap => 26
  | .berths => 2
  | .windLevels => 4
  | .windFloors => 1
  | .ceilingsAndLimits => 5
  | .beaconPatterns => 6
  | .governor => 1
  | .sweep => 1
  | .noticeParams => 1
  | .envelope => 1
  | .cabinRegister => 64
  | .grants => 2
  | .windChannels => 4
  | .drives => 8
  | .sweepList => 64

/-- Whether a table is one of the ten bank tables (R160). -/
def Table.banked (t : Table) : Bool := decide (t.ident ≤ 10)

/-! ## Bank tables in bytes (R160) -/

def Role.code : Role → Nat
  | .supervisor => 1
  | .encoder => 2
  | .anemometer _ => 3
  | .drive _ => 4
  | .station _ => 5
  | .hub => 6

def Role.index : Role → Nat
  | .supervisor | .encoder | .hub => 0
  | .anemometer c => c.val
  | .drive d => d.val
  | .station b => b.code

/-- The role of a code and an index in its range (R160). -/
def Role.ofCode (code index : Nat) : Option Role :=
  match code with
  | 1 => if index = 0 then some .supervisor else none
  | 2 => if index = 0 then some .encoder else none
  | 3 => if h : index < 4 then some (.anemometer ⟨index, h⟩) else none
  | 4 => if h : index < 8 then some (.drive ⟨index, h⟩) else none
  | 5 => if index = 0 then some (.station .a) else if index = 1 then some (.station .b) else none
  | 6 => if index = 0 then some .hub else none
  | _ => none

def Treatment.code : Treatment → Nat
  | .pass => 1
  | .screen => 2
  | .bar => 3

def Treatment.ofCode : Nat → Option Treatment
  | 1 => some .pass
  | 2 => some .screen
  | 3 => some .bar
  | _ => none

def Direction.code : Direction → Nat
  | .toField => 0
  | .toSupervisor => 1

def Direction.ofCode : Nat → Option Direction
  | 0 => some .toField
  | 1 => some .toSupervisor
  | _ => none

/-- `n` zero bytes. -/
def zeros (n : Nat) : List Byte := List.replicate n 0

/-- An entry with a presence byte; EMPTY is as long, with every field 0 (R160). -/
def presentBytes {α : Type} (size : Nat) (f : α → List Byte) : Option α → List Byte
  | none => zeros size
  | some x => 1 :: f x

def roleBytes : Option RoleEntry → List Byte
  | none => zeros 3
  | some e => [byte e.role.code, e.node, byte e.role.index]

def mapBytes : Option MapEntry → List Byte
  | none => zeros 8
  | some m =>
      [byte m.treatment.code, byte m.direction.code, m.srcLo, m.srcHi, m.dstLo, m.dstHi] ++ be2 m.classes.toNat

def defaultBytes (t : Option Treatment) : List Byte := [byte ((t.map Treatment.code).getD 0)]

def berthBytes : Option BerthEntry → List Byte :=
  presentBytes 12 fun z => [z.station] ++ be3 z.start ++ be3 z.length ++ be2 z.margin ++ be2 z.creep

def windBytes : Option WindEntry → List Byte :=
  presentBytes 11 fun w =>
    be2 w.raiseGust ++ be2 w.raiseSust ++ be2 w.clearGust ++ be2 w.clearSust ++ be2 w.holdDown

def floorsBytes : Option FloorsRecord → List Byte :=
  presentBytes 3 fun f => [byte f.quorum, byte f.blind.code]

def limitBytes : Option LimitEntry → List Byte := presentBytes 4 fun l => be2 l.ceiling ++ [byte l.load]

def numberBytes : Option Nat → List Byte := presentBytes 2 fun n => [byte n]

def governorBytes : Option GovernorRecord → List Byte :=
  presentBytes 12 fun g =>
    [byte g.accel] ++ be2 g.decel ++ be2 g.staleMs ++ be2 g.encoderMs ++ be2 g.blind ++ [byte g.tolerance, flagByte g.reverse]

def flushBytes : Option Nat → List Byte := presentBytes 3 be2

/-- The bytes of entry `i` of a bank table, without the index byte (R160). -/
def Bank.entryBytes (k : Bank) (t : Table) (i : Nat) : List Byte :=
  match t with
  | .nodeRoles => roleBytes (slot k.roles i none)
  | .treatmentMap =>
      if i < 24 then mapBytes (slot k.map i none) else if i = 24 then defaultBytes k.defField else defaultBytes k.defSup
  | .berths => if i = 0 then berthBytes k.berths.a else berthBytes k.berths.b
  | .windLevels => windBytes (slot k.windLevels i none)
  | .windFloors => floorsBytes k.floors
  | .ceilingsAndLimits => limitBytes (slot k.limits i none)
  | .beaconPatterns => numberBytes (slot k.beacons i none)
  | .governor => governorBytes k.governor
  | .sweep => numberBytes k.passLimit
  | .noticeParams => flushBytes k.flushMs
  | .envelope | .cabinRegister | .grants | .windChannels | .drives | .sweepList => []

/-! ## Writing bank tables (R162) -/

/-- The length of entry `i` of a bank table without its index byte; the two defaults of TREATMENT_MAP are one byte (R160). -/
def Table.writeSize (t : Table) (i : Nat) : Nat :=
  if t = .treatmentMap ∧ 24 ≤ i then 1 else t.entrySize - 1

/-- The number in `bs` if it lies in a range. -/
def inRange (lo hi : Nat) (bs : List Byte) : Option Nat :=
  if lo ≤ beNat bs ∧ beNat bs ≤ hi then some (beNat bs) else none

/-- An entry's first byte and the rest: EMPTY needs every byte 0, and anything else is read by `f` (R160, R162). The outer
`none` is a field outside its range. -/
def readEntry {α : Type} (f : Byte → List Byte → Option α) : List Byte → Option (Option α)
  | [] => none
  | b :: bs => if b = 0 then (if bs.all (· == 0) then some none else none) else (f b bs).map some

/-- An entry with a presence field of 1 (R160). -/
def readPresent {α : Type} (f : List Byte → Option α) : List Byte → Option (Option α) :=
  readEntry fun b bs => if b = 1 then f bs else none

def readRole : List Byte → Option (Option RoleEntry) :=
  readEntry fun code bs => match bs with
    | [node, index] =>
        if node = 255 then none
        else (Role.ofCode code.toNat index.toNat).map fun r => { role := r, node := node }
    | _ => none

def readMap : List Byte → Option (Option MapEntry) :=
  readEntry fun code bs => match bs with
    | [dir, sl, sh, dl, dh, c1, c0] => do
        let t ← Treatment.ofCode code.toNat
        let d ← Direction.ofCode dir.toNat
        if sl = 255 ∨ sh = 255 then none
        else do
          let cs ← inRange 0 8191 [c1, c0]
          some { treatment := t, direction := d, srcLo := sl, srcHi := sh, dstLo := dl, dstHi := dh
                 classes := BitVec.ofNat 16 cs }
    | _ => none

/-- A default treatment; EMPTY is refused (R162). -/
def readDefault : List Byte → Option (Option Treatment)
  | [b] => (Treatment.ofCode b.toNat).map some
  | _ => none

def readBerth : List Byte → Option (Option BerthEntry) :=
  readPresent fun bs => match bs with
    | [n, s2, s1, s0, l2, l1, l0, m1, m0, c1, c0] => do
        if n = 255 then none
        else do
          let start ← inRange 0 1048575 [s2, s1, s0]
          let len ← inRange 1024 65536 [l2, l1, l0]
          let margin ← inRange 512 65024 [m1, m0]
          let creep ← inRange 0 600 [c1, c0]
          some { station := n, start := start, length := len, margin := margin, creep := creep }
    | _ => none

def readWind : List Byte → Option (Option WindEntry) :=
  readPresent fun bs => match bs with
    | [a1, a0, b1, b0, c1, c0, d1, d0, h1, h0] => do
        let rg ← inRange 1 700 [a1, a0]
        let rs ← inRange 1 700 [b1, b0]
        let cg ← inRange 1 700 [c1, c0]
        let cs ← inRange 1 700 [d1, d0]
        let h ← inRange 30 3600 [h1, h0]
        some { raiseGust := rg, raiseSust := rs, clearGust := cg, clearSust := cs, holdDown := h }
    | _ => none

def readFloors : List Byte → Option (Option FloorsRecord) :=
  readPresent fun bs => match bs with
    | [q, b] => do
        let quorum ← inRange 1 4 [q]
        let _ ← inRange 1 4 [b]
        let blind ← Level.ofCode b.toNat
        some { quorum := quorum, blind := blind }
    | _ => none

/-- Entry `i` of LEVEL_CEILINGS_AND_LIMITS: PARK's ceiling and the load limits of UNLOAD and PARK are 0. -/
def readLimit (i : Nat) : List Byte → Option (Option LimitEntry) :=
  readPresent fun bs => match bs with
    | [c1, c0, l] => do
        let ceiling ← inRange 0 (if i = 4 then 0 else 600) [c1, c0]
        let load ← inRange 0 (if 3 ≤ i then 0 else 40) [l]
        some { ceiling := ceiling, load := load }
    | _ => none

/-- A record of one one-byte number. -/
def readNumber (lo hi : Nat) : List Byte → Option (Option Nat) :=
  readPresent fun bs => match bs with
    | [n] => inRange lo hi [n]
    | _ => none

def readGovernor : List Byte → Option (Option GovernorRecord) :=
  readPresent fun bs => match bs with
    | [a, d1, d0, s1, s0, e1, e0, b1, b0, t, r] => do
        let accel ← inRange 5 200 [a]
        let decel ← inRange 20 500 [d1, d0]
        let staleMs ← inRange 250 5000 [s1, s0]
        let encoderMs ← inRange 200 2000 [e1, e0]
        let blind ← inRange 0 300 [b1, b0]
        let tolerance ← inRange 0 20 [t]
        let rev ← inRange 0 1 [r]
        some { accel := accel, decel := decel, staleMs := staleMs, encoderMs := encoderMs, blind := blind
               tolerance := tolerance, reverse := decide (rev = 1) }
    | _ => none

def readFlush : List Byte → Option (Option Nat) :=
  readPresent fun bs => match bs with
    | [f1, f0] => inRange 50 1000 [f1, f0]
    | _ => none

/-- Write entry `i` of a bank table from its bytes; `none` if a field lies outside its range (R162). -/
def Bank.writeEntry (k : Bank) (t : Table) (i : Nat) (bs : List Byte) : Option Bank :=
  match t with
  | .nodeRoles => (readRole bs).map fun x => { k with roles := k.roles.setIfInBounds i x }
  | .treatmentMap =>
      if i < 24 then (readMap bs).map fun x => { k with map := k.map.setIfInBounds i x }
      else if i = 24 then (readDefault bs).map fun x => { k with defField := x }
      else (readDefault bs).map fun x => { k with defSup := x }
  | .berths =>
      (readBerth bs).map fun x => { k with berths := k.berths.set (if i = 0 then .a else .b) x }
  | .windLevels => (readWind bs).map fun x => { k with windLevels := k.windLevels.setIfInBounds i x }
  | .windFloors => (readFloors bs).map fun x => { k with floors := x }
  | .ceilingsAndLimits => (readLimit i bs).map fun x => { k with limits := k.limits.setIfInBounds i x }
  | .beaconPatterns => (readNumber 0 7 bs).map fun x => { k with beacons := k.beacons.setIfInBounds i x }
  | .governor => (readGovernor bs).map fun x => { k with governor := x }
  | .sweep => (readNumber 1 8 bs).map fun x => { k with passLimit := x }
  | .noticeParams => (readFlush bs).map fun x => { k with flushMs := x }
  | .envelope | .cabinRegister | .grants | .windChannels | .drives | .sweepList => none

/-- The bytes `n` entries of a table take, from entry `i` on. -/
def Table.writeBytes (t : Table) (i : Nat) : Nat → Nat
  | 0 => 0
  | n + 1 => t.writeSize i + t.writeBytes (i + 1) n

/-- Write `n` entries of a bank table from entry `i` on; `none` if any field lies outside its range (R162). -/
def Bank.writeEntries (k : Bank) (t : Table) (i : Nat) : Nat → List Byte → Option Bank
  | 0, _ => some k
  | n + 1, bs =>
      match k.writeEntry t i (bs.take (t.writeSize i)) with
      | none => none
      | some k' => k'.writeEntries t (i + 1) n (bs.drop (t.writeSize i))

/-! ## The tables outside the banks -/

/-- The ENVELOPE entry after its index byte (R174). -/
def Envelope.entryBytes (e : Envelope) : List Byte :=
  [byte e.code] ++ optional (fun n => [byte n]) e.cabins ++ optional (fun n => [byte n]) e.capacity ++
    optional be2 e.maxForward ++ optional (fun n => [byte n]) e.maxReverse ++ optional (fun n => [byte n]) e.berths ++
    optional (fun n => [n]) e.ownNode ++ optional (fun n => [n]) e.supNode ++ optional be2 e.gustCap

/-- A cabin's entry of CABIN_REGISTER (R68). -/
def State.cabinBytes (s : State) (c : Nat) : List Byte :=
  if s.present c then
    let k := s.cabin c
    [byte c, if k.inService then 1 else 2, byte k.door.code, byte k.occupancy, flagByte k.uncertain, flagByte k.assist,
      byte (match s.reported c with
        | none => 0
        | some b => b.code + 1)] ++
      optional (fun g => [byte (Prod.fst g : Berth).code]) (s.grantOf c) ++ optional be3 k.lastExit ++
      [byte (markCode k.mark), byte k.passes]
  else [byte c, 0]

/-- A berth's entry of GRANTS (R92). -/
def State.grantBytes (s : State) (b : Berth) : List Byte :=
  [byte b.code] ++
    optional (fun g : Grant => [byte g.cabin, byte g.kind.code, byte g.state.code] ++ be3 g.since) (s.board.grants.get b) ++
    [byte (s.board.gates.get b).entry.code, byte (s.board.gates.get b).exit.code]

/-- A channel's entry of WIND_CHANNELS (R116). -/
def State.channelBytes (s : State) (c : ChannelIx) : List Byte :=
  let x := s.wind.channels[c]
  [byte c.val, byte x.state.code] ++ optional (fun n => [n]) x.node ++ be2 x.gust ++ be2 x.sustained ++
    [byte x.filled, byte x.stale, byte x.warm] ++ be2 x.direction

/-- A drive's entry of DRIVES (R138). -/
def State.driveBytes (s : State) (d : DriveIx) : List Byte :=
  let x := s.drive d
  [byte d.val, byte x.state.code] ++ optional (fun n => [n]) (s.active.nodeOf (.drive d)) ++ sbe2 x.speed ++ be3 x.credit ++
    optional (fun t => be2 (min (s.clock.now - t) 65535)) x.screened ++ [byte x.subs]

/-- A place's entry of SWEEP_LIST (R156). -/
def State.placeBytes (s : State) (i : Nat) : List Byte :=
  byte i :: optional (fun c =>
    let k := s.cabin c
    [byte c, byte (markCode k.mark), byte k.passes, byte k.occupancy, flagByte k.uncertain]) s.unloadList[i]?

/-- Entry `i` of a table as Read Table returns it: the index byte or the identity field, then the fields (R161). -/
def State.readEntry (s : State) (k : Bank) (t : Table) (i : Nat) : List Byte :=
  match t with
  | .envelope => byte i :: s.envelope.entryBytes
  | .cabinRegister => s.cabinBytes (i + 1)
  | .grants => s.grantBytes (if i = 0 then .a else .b)
  | .windChannels => if h : i < 4 then s.channelBytes ⟨i, h⟩ else []
  | .drives => if h : i < 8 then s.driveBytes ⟨i, h⟩ else []
  | .sweepList => s.placeBytes i
  | .nodeRoles | .treatmentMap | .berths | .windLevels | .windFloors | .ceilingsAndLimits | .beaconPatterns
  | .governor | .sweep | .noticeParams => byte i :: k.entryBytes t i

/-- The bytes a reply offers for the entries of a Read Table: 45 for data, less the table, the bank and the count (R161). -/
def entryRoom : Nat := 42

/-- The entries of a Read Table from entry `i` on, `n` of them at most, wrapping at `size`, while each fits whole in `room`
(R161). R116 says that a read of four entries of WIND_CHANNELS from entry 2 returns channels 2, 3, 0 and 1, but its entries of 12
or 13 bytes do not fit four in R161's room: R161 is followed, and three are returned (log entry 43). -/
def fitEntries (entry : Nat → List Byte) (size : Nat) : Nat → Nat → Nat → List (List Byte)
  | _, _, 0 => []
  | i, room, n + 1 =>
      let e := entry i
      if e.length ≤ room then e :: fitEntries entry size ((i + 1) % size) (room - e.length) n else []

/-! ## The capability directory (R175) -/

/-- The number of present entries of a vector. -/
def countPresent {α : Type} {n : Nat} (v : Vector (Option α) n) : Nat := (v.toList.filter Option.isSome).length

def presentBit {α : Type} (o : Option α) : Nat := if o.isSome then 1 else 0

/-- The entries of a table in use (R175). -/
def State.inUse (s : State) (t : Table) : Nat :=
  match t with
  | .nodeRoles => countPresent s.active.roles
  | .treatmentMap => countPresent s.active.map + presentBit s.active.defField + presentBit s.active.defSup
  | .berths => presentBit s.active.berths.a + presentBit s.active.berths.b
  | .windLevels => countPresent s.active.windLevels
  | .windFloors => presentBit s.active.floors
  | .ceilingsAndLimits => countPresent s.active.limits
  | .beaconPatterns => countPresent s.active.beacons
  | .governor => presentBit s.active.governor
  | .sweep => presentBit s.active.passLimit
  | .noticeParams => presentBit s.active.flushMs
  | .envelope => 1
  | .cabinRegister => s.envelope.count
  | .grants => presentBit s.board.grants.a + presentBit s.board.grants.b
  | .windChannels => (channelIndices.filter fun c => decide ((s.wind.channels[c]).state ≠ .unassigned)).length
  | .drives => (driveIndices.filter fun d => (s.active.nodeOf (.drive d)).isSome).length
  | .sweepList => s.unloadList.length

/-- A table header (R175). -/
def State.header (s : State) (t : Table) : List Byte :=
  [byte t.ident, 1, byte t.entrySize, byte t.entries, byte (s.inUse t)]

/-- The serial number's eight bytes. -/
def serialBytes : List Byte :=
  be4 (Config.serialNumber.toNat / 4294967296) ++ be4 (Config.serialNumber.toNat % 4294967296)

/-- The reply data of Read Directory from header `first` on: the signature "AJDN", the revision 1 and 0, the header count, the
serial number, the envelope state, a count, and up to five headers (R175). -/
def State.directoryData (s : State) (first : Nat) : List Byte :=
  let hs := (allTables.drop first).take 5
  [0x41, 0x4A, 0x44, 0x4E, 1, 0, 16] ++ serialBytes ++ [byte s.envelope.code, byte hs.length] ++ hs.flatMap s.header

end Sys2Proof.Machine
end

