-- ==== Sys2Proof/WellFormed.lean ====
section
/-! DEFINITION. Which commands the outside can give. Two checks: a request comes from a node 0..254 (R4), and a Write
Staging's entries fit the payload of a frame with the request's code, tag and four other arguments (R4, R21). -/

namespace Sys2Proof

/-- A node that can send a frame: its number is 0..254 (R4, R20). -/
def Requester.wellFormed (r : Requester) : Bool := r.node != 255

/-- The most entry bytes a Write Staging request can carry: a payload of 48 bytes less the code, the two bytes of the tag,
the bank, the table, the first index and the count (R4, R21, R162). -/
def maxEntryBytes : Nat := 41

/-- The sender of a request command; `none` for the commands that no request carries. -/
def Instr.requester : Instr → Option Requester
  | .frameArrival _ _ _ => none
  | .transmitStart _ => none
  | .transmitCompletion _ => none
  | .noticeFrameBuild => none
  | .coldReset _ => none
  | .stopInAssertion => none
  | .quarterTick => none
  | .rideSecondTick _ => none
  | .holdDownExpiry => none
  | .channelStale _ => none
  | .channelLive _ => none
  | .encoderWatchExpiry => none
  | .stalenessTimerExpiry _ => none
  | .flushTimerExpiry => none
  | .commitTimerExpiry => none
  | .commitWalkCompletion _ => none
  | .swap => none
  | .deferredWarmRestart => none
  | .readDirectory who _ => some who
  | .readTable who _ _ _ _ => some who
  | .writeStaging who _ _ _ _ _ => some who
  | .commitStaging who _ => some who
  | .abortCommit who => some who
  | .revertToFloor who => some who
  | .readStatus who => some who
  | .setService who _ _ => some who
  | .setOccupancy who _ _ => some who
  | .setOperatorFloor who _ => some who
  | .beginSweep who => some who
  | .endSweep who => some who
  | .openBoarding who => some who
  | .latchStop who => some who
  | .clearStop who => some who
  | .setClock who _ _ _ => some who
  | .setClosingAlarm who _ _ _ => some who
  | .resumeNotices who => some who
  | .warmRestart who => some who
  | .envelopeWrite who _ _ => some who
  | .envelopeLock who => some who
  | .stopInRelease => none
  | .endOfColdReset _ => none
  | .powerLoss => none

/-- The entry bytes a Write Staging command carries; empty for every other command. -/
def Instr.entryBytes : Instr → List Byte
  | .writeStaging _ _ _ _ _ es => es
  | _ => []

/-- The checks a command that the link can deliver meets. -/
def Instr.wellFormed (i : Instr) : Bool :=
  (i.requester.all Requester.wellFormed) && decide (i.entryBytes.length ≤ maxEntryBytes)

end Sys2Proof
end

