-- ==== Sys2Proof/Machine/Requests.lean ====
section
/-! DEFINITION. The Request Handler: what each request does and what it answers (R13, R21, R176 and the rules of the requests
themselves). A request's body gives the state after it and its answer; `State.answer` tests room first and admits the reply
last. -/

namespace Sys2Proof.Machine

/-- A request's outcome on the part: the state after it, and the answer. -/
abbrev Handled := State × Answer

/-- Refuse with no data and no change. -/
def State.refuseRequest (s : State) (o : ReplyOutcome) : Handled := (s, Answer.bare o)

/-- Take a request (R13, R176): with no room in the part queue it is discarded; otherwise it is carried out, and its reply is
built and admitted (R8). -/
def State.answer (s : State) (who : Requester) (body : State → Handled) : State :=
  if s.path.part.length < partRoom then
    (body s).1.enqueuePart who.node codeReply ((body s).2.payload who.tag)
  else s

/-! ## Reading (R161, R175, R177) -/

/-- Read Directory (R175). -/
def State.doReadDirectory (s : State) (first : Byte) : Handled :=
  if 15 < first.toNat then s.refuseRequest .range
  else (s, { outcome := .done, data := s.directoryData first.toNat })

/-- The bank a byte names, `none` above 2 (R161). -/
def BankNo.ofCode : Nat → Option BankNo
  | 0 => some .floor
  | 1 => some .one
  | 2 => some .two
  | _ => none

/-- The data of a Read Table that passed its checks (R161). -/
def State.tableData (s : State) (t : Table) (k : Bank) (bank : Byte) (first count : Nat) : List Byte :=
  let es := fitEntries (s.readEntry k t) t.entries first entryRoom count
  [byte t.ident, bank, byte es.length] ++ es.flatten

/-- Read Table (R161); the bank is ignored for a table outside the banks. -/
def State.doReadTable (s : State) (table bank first count : Byte) : Handled :=
  match Table.ofIdent table.toNat with
  | none => s.refuseRequest .range
  | some t =>
      match (if t.banked then BankNo.ofCode bank.toNat else some s.policy.active) with
      | none => s.refuseRequest .range
      | some k =>
          if t.entries ≤ first.toNat ∨ count.toNat < 1 ∨ 16 < count.toNat then s.refuseRequest .range
          else (s, { outcome := .done, data := s.tableData t (s.bank k) bank first.toNat count.toNat })

/-- The reply data of Read Status (R177). -/
def State.statusData (s : State) : List Byte :=
  [byte s.mode.code, byte s.policy.active.code, byte s.policy.commit.code, byte s.wind.level.code] ++
    be2 s.wind.countdown ++ [byte s.wind.live] ++ be2 s.wind.effGust ++ be2 s.wind.effSust ++
    be2 s.governor.ceilingF ++ [byte s.governor.ceilingV, flagByte s.rim.known] ++
    be3 s.lastFix.position ++ sbe2 s.lastFix.speed ++
    [byte s.sweep.state.code, byte s.sweep.causeCode, flagByte s.governor.latch, byte s.notices.freeze.code] ++
    be2 s.notices.lost ++ [flagByte s.clock.set] ++ be3 s.stamp

/-- Read Status (R177). -/
def State.doReadStatus (s : State) : Handled := (s, { outcome := .done, data := s.statusData })

/-! ## The banks and commit (R162, R163, R169, R170) -/

/-- The contents of a loadable bank. -/
def State.loadBank (s : State) : LoadBank → Bank
  | .one => s.policy.bank1
  | .two => s.policy.bank2

/-- Replace the contents of a loadable bank. -/
def PolicyStore.setBank (p : PolicyStore) : LoadBank → Bank → PolicyStore
  | .one, k => { p with bank1 := k }
  | .two, k => { p with bank2 := k }

/-- Steps 4 to 7 of Write Staging, on the staging bank `k`: the bank written, `none` where a step refuses (R162). -/
def writeChecked (k : Bank) (table first count : Nat) (entries : List Byte) : Option Bank :=
  match Table.ofIdent table with
  | none => none
  | some t =>
      if t.banked = false ∨ count < 1 ∨ 16 < count ∨ t.entries < first + count ∨
          entries.length ≠ t.writeBytes first count then none
      else k.writeEntries t first count entries

/-- Write Staging, judged in the order of R162. -/
def State.doWriteStaging (s : State) (bank table first count : Byte) (entries : List Byte) : Handled :=
  if s.inFlight then s.refuseRequest .busy
  else match LoadBank.ofCode bank.toNat with
    | none => s.refuseRequest .range
    | some b =>
        if b ≠ s.policy.staging then s.refuseRequest .state
        else match writeChecked (s.loadBank b) table.toNat first.toNat count.toNat entries with
          | none => s.refuseRequest .range
          | some k => (s.withPolicy (s.policy.setBank b k), { outcome := .done, data := [count] })

/-- The commit timer's duration in ms (R163). -/
def commitMs : Nat := 60000

/-- Commit Staging (R163). -/
def State.doCommitStaging (s : State) (bank : Byte) : Handled :=
  if s.inFlight then s.refuseRequest .busy
  else match LoadBank.ofCode bank.toNat with
    | none => s.refuseRequest .range
    | some b =>
        if b ≠ s.policy.staging then s.refuseRequest .state
        else
          (s.withPolicy { s.policy with
            commit := .walking, commitBank := some b, timer := some commitMs
            walk := s.policy.walk + 1, walkAge := 0 },
           { outcome := .accepted, data := [bank] })

/-- Abort Commit (R169). -/
def State.doAbortCommit (s : State) : Handled :=
  if s.inFlight then (s.finishCommit (.aborted s.policy.commit none), Answer.bare .done)
  else s.refuseRequest .state

/-- Revert to Floor, answered with the active bank after it (R170). -/
def State.doRevertToFloor (s : State) : Handled :=
  (s.revert, { outcome := .done, data := [byte s.revert.policy.active.code] })

/-! ## Cabins (R64, R65) -/

/-- Set Service (R64). -/
def State.doSetService (s : State) (cabin service : Byte) : Handled :=
  if s.present cabin.toNat ∧ (service = 1 ∨ service = 2) then
    (s.setService cabin.toNat (service == 1), Answer.bare .done)
  else s.refuseRequest .range

/-- Set Occupancy (R65). -/
def State.doSetOccupancy (s : State) (cabin occupancy : Byte) : Handled :=
  if s.present cabin.toNat ∧ occupancy.toNat ≤ maxOccupancy then
    (s.setOccupancy cabin.toNat occupancy.toNat, Answer.bare .done)
  else s.refuseRequest .range

/-! ## Wind and sweep (R106, R155) -/

/-- Set Operator Floor (R106). -/
def State.doSetOperatorFloor (s : State) (level : Byte) : Handled :=
  match Level.ofCode level.toNat with
  | none => s.refuseRequest .range
  | some l =>
      let t := (s.withWind { s.wind with floor := l }).applyFloors
      (t, { outcome := .done, data := [byte t.wind.floor.code, byte t.wind.level.code] })

/-- The reply data of the sweep requests (R155). -/
def State.sweepData (s : State) : List Byte :=
  [byte s.sweep.state.code, byte s.sweep.causeCode, byte s.unloadList.length]

/-- Answer a sweep request with the sweep as it then stands (R155). -/
def State.sweepAnswer (s : State) : Handled := (s, { outcome := .done, data := s.sweepData })

/-- Begin Sweep adds OPERATOR (R155). -/
def State.doBeginSweep (s : State) : Handled := (s.sweepAdd .operator .request).sweepAnswer

/-- End Sweep removes OPERATOR (R155). -/
def State.doEndSweep (s : State) : Handled := (s.sweepRemove .operator .request).sweepAnswer

/-- Open Boarding removes CLOSE (R155). -/
def State.doOpenBoarding (s : State) : Handled := (s.sweepRemove .close .request).sweepAnswer

/-! ## The stop latch (R135, R136) -/

/-- The reply data of Latch Stop and Clear Stop: the latch and the input, each 0 or 1 (R136). -/
def State.stopData (s : State) : List Byte := [flagByte s.governor.latch, flagByte s.stopIn]

/-- Latch Stop (R135). -/
def State.doLatchStop (s : State) : Handled :=
  (s.setLatch 1, { outcome := .done, data := (s.setLatch 1).stopData })

/-- Clear Stop: refused STATE, with its data, while STOP_IN is active and the latch SET (R136, R176). -/
def State.doClearStop (s : State) : Handled :=
  if s.governor.latch = false then (s, { outcome := .done, data := s.stopData })
  else if s.stopIn then (s, { outcome := .state, data := s.stopData })
  else (s.clearLatch, { outcome := .done, data := s.clearLatch.stopData })

/-! ## The clock (R179, R180) -/

/-- Set Clock (R179). -/
def State.doSetClock (s : State) (hours minutes seconds : Byte) : Handled :=
  if hours.toNat ≤ 23 ∧ minutes.toNat ≤ 59 ∧ seconds.toNat ≤ 59 then
    let time := hours.toNat * 3600 + minutes.toNat * 60 + seconds.toNat
    (s.withClock { s.clock with set := true, time := time }, { outcome := .done, data := 1 :: be3 time })
  else s.refuseRequest .range

/-- Set Closing Alarm (R180). -/
def State.doSetClosingAlarm (s : State) (hours minutes enable : Byte) : Handled :=
  if hours.toNat ≤ 23 ∧ minutes.toNat ≤ 59 ∧ enable.toNat ≤ 1 then
    (s.withClock { s.clock with
      alarmHour := hours.toNat, alarmMinute := minutes.toNat, alarmOn := decide (enable.toNat = 1) },
     { outcome := .done, data := [hours, minutes, enable, flagByte s.clock.set] })
  else s.refuseRequest .range

/-! ## Notices and restart (R185, R186) -/

/-- Resume Notices: in REPORTED the queue flows again, answered with the lost count (R185). -/
def State.doResumeNotices (s : State) : Handled :=
  if s.notices.freeze = .reported then
    (s.withNotices { s.notices with freeze := .flowing, lost := 0, firstLost := none },
     { outcome := .done, data := be2 s.notices.lost })
  else s.refuseRequest .state

/-- Warm Restart: deferred while a commit is in flight, otherwise carried out (R171, R186). -/
def State.doWarmRestart (s : State) : Handled :=
  if s.inFlight then (s.withPolicy { s.policy with deferred := true }, Answer.bare .accepted)
  else (s.warmRestart, Answer.bare .done)

/-! ## The envelope (R173, R174) -/

/-- The range of a value for an envelope field (R173). -/
def envelopeRange : Nat → Option (Nat × Nat)
  | 0 => some (8, 64)
  | 1 => some (1, 40)
  | 2 => some (1, 600)
  | 3 => some (0, 200)
  | 4 => some (1, 2)
  | 5 => some (0, 254)
  | 6 => some (0, 254)
  | 7 => some (150, 400)
  | _ => none

/-- The envelope with a field written (R173). -/
def Envelope.write (e : Envelope) (field v : Nat) : Envelope :=
  match field with
  | 0 => { e with cabins := some v }
  | 1 => { e with capacity := some v }
  | 2 => { e with maxForward := some v }
  | 3 => { e with maxReverse := some v }
  | 4 => { e with berths := some v }
  | 5 => { e with ownNode := some (byte v) }
  | 6 => { e with supNode := some (byte v) }
  | 7 => { e with gustCap := some v }
  | _ => e

/-- A written envelope reaches the blocks that read it: the Boarding Screen and the governor recompute, and where N has changed
the sweep state follows the list of the cabins 1 to N (R52, R87, R120, R141; log entry 29). -/
def State.takeEnvelope (s : State) (e : Envelope) : State :=
  let t := (s.withEnvelope e).recomputeBoarding
  if e.count = s.envelope.count then t else t.finishSweep s .request

/-- Envelope Write (R171, R173). -/
def State.doEnvelopeWrite (s : State) (field : Byte) (value : BitVec 16) : Handled :=
  if s.envelope.locked then s.refuseRequest .locked
  else if s.inFlight then s.refuseRequest .busy
  else match envelopeRange field.toNat with
    | none => s.refuseRequest .range
    | some (lo, hi) =>
        if lo ≤ value.toNat ∧ value.toNat ≤ hi then
          (s.takeEnvelope (s.envelope.write field.toNat value.toNat), Answer.bare .done)
        else s.refuseRequest .range

/-- Envelope Lock (R174). -/
def State.doEnvelopeLock (s : State) : Handled :=
  if s.envelope.locked then s.refuseRequest .locked
  else if s.inFlight then s.refuseRequest .busy
  else if s.envelope.complete ∧ s.envelope.supNode ≠ s.envelope.ownNode then
    (s.withEnvelope { s.envelope with locked := true }, Answer.bare .done)
  else s.refuseRequest .state

/-! ## A request as a frame carries it (R21, R176) -/

/-- The requests of R21. -/
inductive RequestCode where
  | readDirectory
  | readTable
  | writeStaging
  | commitStaging
  | abortCommit
  | revertToFloor
  | readStatus
  | setService
  | setOccupancy
  | setOperatorFloor
  | beginSweep
  | endSweep
  | openBoarding
  | latchStop
  | clearStop
  | setClock
  | setClosingAlarm
  | resumeNotices
  | warmRestart
  | envelopeWrite
  | envelopeLock
  deriving DecidableEq, Repr

/-- A request's code (R21). -/
def RequestCode.code : RequestCode → Nat
  | .readDirectory => 1
  | .readTable => 2
  | .writeStaging => 3
  | .commitStaging => 4
  | .abortCommit => 5
  | .revertToFloor => 6
  | .readStatus => 7
  | .setService => 8
  | .setOccupancy => 9
  | .setOperatorFloor => 10
  | .beginSweep => 11
  | .endSweep => 12
  | .openBoarding => 13
  | .latchStop => 14
  | .clearStop => 15
  | .setClock => 16
  | .setClosingAlarm => 17
  | .resumeNotices => 18
  | .warmRestart => 19
  | .envelopeWrite => 20
  | .envelopeLock => 21

/-- The requests, by code. -/
def allRequests : List RequestCode :=
  [.readDirectory, .readTable, .writeStaging, .commitStaging, .abortCommit, .revertToFloor, .readStatus, .setService,
    .setOccupancy, .setOperatorFloor, .beginSweep, .endSweep, .openBoarding, .latchStop, .clearStop, .setClock,
    .setClosingAlarm, .resumeNotices, .warmRestart, .envelopeWrite, .envelopeLock]

/-- The request of a code, `none` for a code that R21 does not list. -/
def RequestCode.ofCode (n : Nat) : Option RequestCode := allRequests.find? fun r => r.code == n

/-- The request a command stands for, with its argument bytes; `none` for the commands that no request carries (R21). -/
def requestOf : Instr → Option (RequestCode × List Byte)
  | .frameArrival _ _ _ => none
  | .transmitStart _ => none
  | .transmitCompletion _ => none
  | .noticeFrameBuild => none
  | .coldReset _ => none
  | .stopInAssertion => none
  | .quarterTick => none
  | .rideSecondTick _ => none
  | .holdDownExpiry => none
  | .channelStale _ => none
  | .channelLive _ => none
  | .encoderWatchExpiry => none
  | .stalenessTimerExpiry _ => none
  | .flushTimerExpiry => none
  | .commitTimerExpiry => none
  | .commitWalkCompletion _ => none
  | .swap => none
  | .deferredWarmRestart => none
  | .readDirectory _ first => some (.readDirectory, [first])
  | .readTable _ table bank first count => some (.readTable, [table, bank, first, count])
  | .writeStaging _ bank table first count entries => some (.writeStaging, bank :: table :: first :: count :: entries)
  | .commitStaging _ bank => some (.commitStaging, [bank])
  | .abortCommit _ => some (.abortCommit, [])
  | .revertToFloor _ => some (.revertToFloor, [])
  | .readStatus _ => some (.readStatus, [])
  | .setService _ cabin service => some (.setService, [cabin, service])
  | .setOccupancy _ cabin occupancy => some (.setOccupancy, [cabin, occupancy])
  | .setOperatorFloor _ level => some (.setOperatorFloor, [level])
  | .beginSweep _ => some (.beginSweep, [])
  | .endSweep _ => some (.endSweep, [])
  | .openBoarding _ => some (.openBoarding, [])
  | .latchStop _ => some (.latchStop, [])
  | .clearStop _ => some (.clearStop, [])
  | .setClock _ hours minutes seconds => some (.setClock, [hours, minutes, seconds])
  | .setClosingAlarm _ hours minutes enable => some (.setClosingAlarm, [hours, minutes, enable])
  | .resumeNotices _ => some (.resumeNotices, [])
  | .warmRestart _ => some (.warmRestart, [])
  | .envelopeWrite _ field value => some (.envelopeWrite, [field, value.extractLsb' 8 8, value.extractLsb' 0 8])
  | .envelopeLock _ => some (.envelopeLock, [])
  | .stopInRelease => none
  | .endOfColdReset _ => none
  | .powerLoss => none

/-- The payload of the REQUEST that carries a command: the code, the tag and the arguments (R21). -/
def requestPayload (c : Instr) : Option (List Byte) :=
  match requestOf c, c.requester with
  | some (r, args), some who => some (byte r.code :: be2 who.tag.toNat ++ args)
  | _, _ => none

/-- A request of no arguments, of one, two, three or four bytes: argument bytes that do not match in number are refused RANGE
(R176). -/
def State.args0 (s : State) (k : Handled) : List Byte → Handled
  | [] => k
  | _ => s.refuseRequest .range
def State.args1 (s : State) (k : Byte → Handled) : List Byte → Handled
  | [a] => k a
  | _ => s.refuseRequest .range
def State.args2 (s : State) (k : Byte → Byte → Handled) : List Byte → Handled
  | [a, b] => k a b
  | _ => s.refuseRequest .range
def State.args3 (s : State) (k : Byte → Byte → Byte → Handled) : List Byte → Handled
  | [a, b, c] => k a b c
  | _ => s.refuseRequest .range
def State.args4 (s : State) (k : Byte → Byte → Byte → Byte → Handled) : List Byte → Handled
  | [a, b, c, d] => k a b c d
  | _ => s.refuseRequest .range

/-- Write Staging's arguments: four bytes, and the entries' bytes, which its own rule judges (R162). -/
def State.argsWrite (s : State) : List Byte → Handled
  | bank :: table :: first :: count :: entries => s.doWriteStaging bank table first count entries
  | _ => s.refuseRequest .range

/-- A listed request with its argument bytes. -/
def State.handleListed (s : State) (r : RequestCode) (args : List Byte) : Handled :=
  match r with
  | .readDirectory => s.args1 s.doReadDirectory args
  | .readTable => s.args4 s.doReadTable args
  | .writeStaging => s.argsWrite args
  | .commitStaging => s.args1 s.doCommitStaging args
  | .abortCommit => s.args0 s.doAbortCommit args
  | .revertToFloor => s.args0 s.doRevertToFloor args
  | .readStatus => s.args0 s.doReadStatus args
  | .setService => s.args2 s.doSetService args
  | .setOccupancy => s.args2 s.doSetOccupancy args
  | .setOperatorFloor => s.args1 s.doSetOperatorFloor args
  | .beginSweep => s.args0 s.doBeginSweep args
  | .endSweep => s.args0 s.doEndSweep args
  | .openBoarding => s.args0 s.doOpenBoarding args
  | .latchStop => s.args0 s.doLatchStop args
  | .clearStop => s.args0 s.doClearStop args
  | .setClock => s.args3 s.doSetClock args
  | .setClosingAlarm => s.args3 s.doSetClosingAlarm args
  | .resumeNotices => s.args0 s.doResumeNotices args
  | .warmRestart => s.args0 s.doWarmRestart args
  | .envelopeWrite => s.args3 (fun field hi lo => s.doEnvelopeWrite field (hi ++ lo)) args
  | .envelopeLock => s.args0 s.doEnvelopeLock args

/-- What a request code and its argument bytes ask for: an unknown code is answered UNKNOWN_REQUEST (R176). -/
def State.handleRequest (s : State) (code : Byte) (args : List Byte) : Handled :=
  match RequestCode.ofCode code.toNat with
  | some r => s.handleListed r args
  | none => s.refuseRequest .unknownRequest

/-- A REQUEST frame taken by the Request Handler (R27, R176). -/
def State.takeRequest (s : State) (f : Frame) : State :=
  match f.payload with
  | code :: t1 :: t0 :: args => s.answer { node := f.src, tag := t1 ++ t0 } fun s => s.handleRequest code args
  | _ => s

end Sys2Proof.Machine
end

