-- ==== Sys2Proof/Machine/Sorter.lean ====
section
/-! DEFINITION. The Frame Sorter and a frame's arrival: the treatment of a frame, the order screens' common checks, the site
ranges, handing reports over by role, and the judgement at the port (chapters 1 and 2). -/

namespace Sys2Proof.Machine

/-! ## The treatment map (R28 to R30) -/

/-- The direction of a frame taken in at a port (R5). -/
def directionOf : Port → Direction
  | .supervisor => .toField
  | .field => .toSupervisor

/-- The port a frame of a direction leaves by (R5). -/
def exitPort : Port → Port
  | .supervisor => .field
  | .field => .supervisor

/-- Whether a frame of a direction matches an entry of the map (R28). -/
def MapEntry.matches (m : MapEntry) (d : Direction) (f : Frame) : Bool :=
  decide (m.direction = d) && decide (m.srcLo.toNat ≤ f.src.toNat) && decide (f.src.toNat ≤ m.srcHi.toNat) &&
    decide (m.dstLo.toNat ≤ f.dest.toNat) && decide (f.dest.toNat ≤ m.dstHi.toNat) && m.classes.getLsbD f.kind.bit

/-- The stricter of two treatments (R29). -/
def Treatment.stricter (x y : Treatment) : Treatment := if x.code < y.code then y else x

/-- A bank's default treatment for a direction (R29). -/
def Bank.defaultFor (k : Bank) : Direction → Treatment
  | .toField => k.defField.getD .bar
  | .toSupervisor => k.defSup.getD .pass

/-- The treatment the map gives: the strictest among the matching entries, or the default (R29). -/
def Bank.mapTreatment (k : Bank) (d : Direction) (f : Frame) : Treatment :=
  match (k.map.toList.filterMap id).filter (fun m => m.matches d f) with
  | [] => k.defaultFor d
  | m :: ms => ms.foldl (fun t n => t.stricter n.treatment) m.treatment

/-- The three classes of order that are screened on their way to the field (R30). -/
def FrameClass.screened : FrameClass → Bool
  | .speedOrder | .doorOrder | .gateOrder => true
  | .beaconOrder | .rimReport | .windReport | .doorReport | .countReport | .gateReport | .request | .reply | .notice
  | .other => false

/-- Whether a frame is an order of those classes travelling TO_FIELD. -/
def isFieldOrder (d : Direction) (f : Frame) : Bool := decide (d = .toField) && f.kind.screened

/-- The treatment after the raise (R29, R30). R30 says that 'two raises apply' and spells out one, which is the one made here
(log entry 42). -/
def State.treatmentOf (s : State) (d : Direction) (f : Frame) : Treatment :=
  let t := s.active.mapTreatment d f
  if isFieldOrder d f ∧ t = .pass then .screen else t

/-! ## Site ranges (R33) -/

/-- The node of a frame that is not on the supervisor side (R33). -/
def Frame.fieldSide (f : Frame) : Direction → Byte
  | .toField => f.dest
  | .toSupervisor => f.src

/-- Whether a role is a STATION's, and a DRIVE's or an ANEMOMETER's. -/
def isStation : Option Role → Bool
  | some (.station _) => true
  | _ => false

def isDrive : Option Role → Bool
  | some r => r.isDrive
  | none => false

def isAnemometer : Option Role → Bool
  | some r => r.isAnemometer
  | none => false

/-- The cabin a DOOR ORDER, DOOR REPORT or COUNT REPORT names. -/
def Frame.cabin (f : Frame) : Nat := (f.payload.headD 0).toNat

/-- The site-range check of a frame (R33). -/
def State.siteOk (s : State) (d : Direction) (f : Frame) : Bool :=
  match f.kind with
  | .doorOrder | .doorReport | .countReport => decide (f.cabin ≤ s.envelope.count)
  | .gateOrder | .gateReport | .beaconOrder => isStation (s.active.roleOf (f.fieldSide d))
  | .speedOrder => isDrive (s.active.roleOf (f.fieldSide d))
  | .rimReport => decide (s.active.roleOf f.src = some .encoder)
  | .windReport => isAnemometer (s.active.roleOf f.src)
  | .request | .reply | .notice | .other => true

/-! ## Screening (R32) -/

/-- In MONITOR mode a SPEED ORDER to a DRIVE node that reaches no screen sets that drive's last forwarded speed (R35). A broadcast
one names no DRIVE node, so it sets none, although R35 and R129 list BROADCAST (log entry 45). -/
def State.noteMonitorSpeed (s : State) (f : Frame) : State :=
  if s.mode = .monitor then
    match f.kind, s.active.roleOf f.dest, f.payload with
    | .speedOrder, some (.drive d), [hi, lo, _] => s.noteUnscreened d (signed2 hi lo)
    | _, _, _ => s
  else s

/-- An order refused before it reached a screen (R31, R32, R35). -/
def State.refuseUnscreened (s : State) (r : Reason) (f : Frame) : State := (s.noteMonitorSpeed f).refuseOrder r f

/-- An order handed to its screen, or forwarded unscreened (R32, steps 3 to 5). -/
def State.toScreen (s : State) (f : Frame) : State :=
  match f.kind, f.payload with
  | .speedOrder, [hi, lo, brake] =>
      match s.active.roleOf f.dest with
      | some (.drive d) => s.screenSpeed d (signed2 hi lo) brake f
      | _ => s.offerForward .field f
  | .gateOrder, [gate, action] =>
      match s.active.roleOf f.dest with
      | some (.station berth) => s.screenGate berth (gate == 1) (action == 1) f
      | _ => s.offerForward .field f
  | .doorOrder, [cabin, action, kind] =>
      s.screenDoor cabin.toNat (action == 0) (if kind = 0 then .standard else .assist) f
  | _, _ => s.offerForward .field f

/-- An order with treatment SCREEN travelling TO_FIELD (R32). -/
def State.screenOrder (s : State) (f : Frame) : State :=
  if s.orderSupervisor f.src = false then s.refuseUnscreened .notSupervisor f
  else if f.dest = 255 then s.refuseUnscreened .broadcast f
  else s.toScreen f

/-! ## The walk of one frame (R25, R27, R31, R33) -/

/-- A frame to the part's own node (R27). -/
def State.takeOwn (s : State) (p : Port) (f : Frame) : State :=
  match f.kind, p with
  | .request, .supervisor =>
      if s.requestSupervisor f.src then s.takeRequest f else s.postRefused .notSupervisor false f
  | .request, .field => s.postRefused .notSupervisor false f
  | _, _ => s.postRefused .unexpected false f

/-- A frame to another node, by its treatment (R31, R32, R33). -/
def State.treat (s : State) (p : Port) (f : Frame) : State :=
  let d := directionOf p
  match s.treatmentOf d f with
  | .pass => s.offerForward (exitPort p) f
  | .bar => if isFieldOrder d f then s.refuseUnscreened .barred f else s.postRefused .barred false f
  | .screen =>
      if isFieldOrder d f then s.screenOrder f
      else if s.siteOk d f then s.offerForward (exitPort p) f
      else s.postRefused .badField false f

/-- Whether the frame's own SCREEN treatment raises BAD_FIELD for it (R34). -/
def State.raisesBadField (s : State) (p : Port) (f : Frame) : Bool :=
  decide (f.dest ≠ s.envelope.own) && decide (s.treatmentOf (directionOf p) f = .screen) &&
    !isFieldOrder (directionOf p) f && !s.siteOk (directionOf p) f

/-! ## Noting reports by role (R34) -/

/-- A DOOR or COUNT REPORT that names a cabin above N is not handed over; it raises BAD_FIELD once (R34). -/
def State.noteAboveN (s : State) (told : Bool) (f : Frame) : State :=
  if told then s else s.postRefused .badField false f

/-- A report taken in at the field port is handed to its consumer when its source holds the role of its class; `told` says that
BAD_FIELD has been raised for it in this arrival (R34). -/
def State.handOver (s : State) (told : Bool) (f : Frame) : State :=
  match f.kind, s.active.roleOf f.src, f.payload with
  | .rimReport, some .encoder, [p2, p1, p0, v1, v0, status] =>
      if status = 0 then (s.takeGoodRim (beNat [p2, p1, p0]) (signed2 v1 v0)).afterGrants s else s.losePosition
  | .windReport, some (.anemometer c), [w1, w0, d1, d0, status] =>
      if status = 0 then s.takeSample c (beNat [w1, w0]) (beNat [d1, d0]) else s
  | .doorReport, some .hub, [cabin, door] =>
      if s.present cabin.toNat then (s.takeDoor cabin.toNat (DoorState.ofCode door.toNat)).afterGrants s
      else s.noteAboveN told f
  | .countReport, some (.station berth), [cabin, boarded, alighted] =>
      if s.present cabin.toNat then s.takeCount berth cabin.toNat boarded.toNat alighted.toNat f
      else s.noteAboveN told f
  | .gateReport, some (.station berth), [entry, exit] =>
      s.takeGates berth (GateState.ofCode entry.toNat) (GateState.ofCode exit.toNat)
  | _, _, _ => s

/-- The walk of one frame: taken, or treated by the map, and then, from the field port, noted by role (R25). -/
def State.sortFrame (s : State) (p : Port) (f : Frame) : State :=
  let t := if f.dest = s.envelope.own then s.takeOwn p f else s.treat p f
  match p with
  | .supervisor => t
  | .field => t.handOver (s.raisesBadField p f) f

/-! ## Arrival (R2, R4, R6) -/

/-- A port's staging point. -/
def FramePath.staging (p : FramePath) : Port → Staging
  | .supervisor => p.supStaging
  | .field => p.fldStaging

/-- Replace a port's staging point. -/
def FramePath.setStaging (p : FramePath) : Port → Staging → FramePath
  | .supervisor, x => { p with supStaging := x }
  | .field, x => { p with fldStaging := x }

/-- A frame dropped at arrival as BAD_CHECK: its LINK notice (R6). -/
def State.postBadCheck (s : State) (p : Port) : State := s.post .link false (portNumber p) 0 255 255 255

/-- A frame dropped at arrival as MALFORMED: its LINK notice (R6). -/
def State.postMalformed (s : State) (p : Port) (f : Frame) : State :=
  s.post .link false (portNumber p) 1 f.cls f.dest f.src

/-- The Frame Path deals with the run of bytes its staging point has taken in (R2, R4, R5). -/
def State.judgeArrival (s : State) (p : Port) (st : Staging) : State :=
  match judge st with
  | .badCheck => s.postBadCheck p
  | .malformed f => s.postMalformed p f
  | .taken f => s.sortFrame p f

/-- A run of bytes arrives at a port: it is taken in by the staging point and dealt with, and the staging point is empty again
(R1, R2). An arrival is one event, so no state between events holds a part of a frame. -/
def State.arrive (s : State) (p : Port) (bytes : List Byte) (badStop : Bool) : State :=
  (s.withPath (s.path.setStaging p Staging.empty)).judgeArrival p (Staging.fill bytes badStop)

end Sys2Proof.Machine
end

