-- ==== Sys2Proof/Machine/Clock.lean ====
section
/-! DEFINITION. The Clock Unit's ticks and timers, the stop pin, cold reset, the loss of power, and what the part does while no
command waits (R135 to R137, R178 to R182, R187). -/

namespace Sys2Proof.Machine

/-! ## The ride clock and the closing alarm (R179, R180) -/

/-- The seconds of a day. -/
def daySeconds : Nat := 86400

/-- The second of the day after `t`, rolling over (R179). -/
def nextSecond (t : Nat) : Nat := (t + 1) % daySeconds

/-- The closing alarm's second of the day (R180). -/
def ClockUnit.alarmSecond (k : ClockUnit) : Nat := k.alarmHour * 3600 + k.alarmMinute * 60

/-- Whether a ride-second tick fires the alarm: the clock is SET, the alarm enabled, and the tick brings the clock to hh:mm:00
(R180). -/
def ClockUnit.fires (k : ClockUnit) : Bool := k.set && k.alarmOn && decide (nextSecond k.time = k.alarmSecond)

/-- The clock after a ride-second tick: only a SET clock advances (R179). -/
def ClockUnit.tick (k : ClockUnit) : ClockUnit := if k.set then { k with time := nextSecond k.time } else k

/-- Post the CLOSE notice (R180). -/
def State.postClose (s : State) : State :=
  s.post .close false 0 (byte s.clock.alarmHour) (byte s.clock.alarmMinute) 0 0

/-- The ride clock and alarm take a ride-second tick: on firing, the CLOSE notice and then the CLOSE cause (R179, R180). -/
def State.clockTick (s : State) : State :=
  let t := s.withClock s.clock.tick
  if s.clock.fires then t.postClose.sweepAdd .close .alarm else t

/-! ## The ticks (R178) -/

/-- The ride-second tick at its two takers, in either order (R180; log entry 5). -/
def State.secondTick (s : State) (clockFirst : Bool) : State :=
  if clockFirst then s.clockTick.windTick else s.windTick.clockTick

/-- The ms between quarter ticks (R178). -/
def quarterMs : Nat := 250

/-- The quarter tick as the moment of the time base: the time up to it passes, and its phase begins again (R178). -/
def State.toQuarter (s : State) : State :=
  let t := s.advance (quarterMs - s.clock.sinceQuarter)
  t.withClock { t.clock with
    sinceQuarter := t.clock.sinceQuarter - quarterMs, quarters := (t.clock.quarters + 1) % 4 }

/-- The quarter tick (R132, R178). -/
def State.quarter (s : State) : State := s.toQuarter.substituteAll

/-! ## The flush timer (R182) -/

/-- The expiry of the flush timer drains the combining buffer; a stopped timer has none (R182). -/
def State.flushExpiry (s : State) : State :=
  match s.notices.flush with
  | none => s
  | some ms => (s.advance ms).withNotices (s.advance ms).notices.drain

/-! ## The stop input (R135, R136) -/

/-- The level of STOP_IN, `true` for active. -/
def State.withStopIn (s : State) (v : Bool) : State := { s with stopIn := v }

/-! ## Cold reset and the loss of power (R18, R50, R69, R93, R94, R112, R137, R139, R157, R158, R173, R181, R187) -/

def State.withPhase (s : State) (p : Phase) : State := { s with phase := p }

/-- Every block in its cold-reset state, the lines silent and the rim-hold line released. The pins, the mode last sampled, the
envelope and the commands that wait are no block's state and are kept. -/
def State.inReset (s : State) : State :=
  { pending := s.pending, phase := .heldInReset, mode := s.mode, stopIn := s.stopIn
    clock := ClockUnit.reset, path := FramePath.reset, rim := RimTracker.reset
    cabins := Vector.replicate 64 Cabin.reset, board := BoardingScreen.reset, wind := WindAssessor.reset
    governor := Governor.reset, sweep := SweepScheduler.reset, policy := PolicyStore.reset s.policy.walk
    envelope := s.envelope, notices := NoticeUnit.reset }

/-- The Boarding Screen recomputes its conditions in the reset, so that CREEP holds where the envelope has cabins, all of them
with door UNKNOWN (R69, R86, R87). The ceilings stay 0, with the latch SET. -/
def State.withResetConditions (s : State) : State :=
  s.withBoard { s.board with doorStop := s.doorStopNow, creep := s.creepNow, creepValue := s.creepValueNow }

/-- The part is put into cold reset and held there (R187). -/
def State.enterReset (s : State) : State := s.inReset.withResetConditions

/-- The two ways into cold reset: a part without power feels no RESET_N (R187). -/
def State.coldReset (s : State) (cause : ResetCause) : State :=
  match cause with
  | .powerOn => s.enterReset
  | .resetPin => if s.phase = .unpowered then s else s.enterReset

/-- The end of cold reset: the MODE strap is sampled, the time base starts, and the rim-hold line follows the mode (R35, R137,
R139, R178, R187). -/
def State.leaveReset (s : State) (modeHigh : Bool) : State :=
  if s.phase = .heldInReset then
    let m := if modeHigh then Mode.screen else Mode.monitor
    { s with
      phase := .running, mode := m, clock := ClockUnit.reset
      governor := { s.governor with rimHold := rimHoldFor m s.governor.ceilingF s.governor.ceilingV } }
  else s

/-- The part loses its supply: the transmitters go silent, and the rim-hold line is released (R137). What the blocks held is
out of reach until power returns, and cold reset replaces it. -/
def State.losePower (s : State) : State :=
  { s with
    phase := .unpowered
    path := { s.path with supTx := none, fldTx := none }
    governor := { s.governor with rimHold := true } }

/-! ## While no command waits (R178) -/

/-- The longest commit walk, in ms (R163). -/
def walkLimit : Nat := 20

/-- How long the walk of an acceptance takes: at least 1 ms and at most 20 (R163; log entry 4). -/
def walkTime (walk : Nat) : Nat := 1 + Config.walkDelay walk % walkLimit

/-- A command in a list of its own if a condition holds. -/
def dueIf (b : Bool) (c : Instr) : List Instr := if b then [c] else []

/-- Whether a drive's staleness timer has run out. -/
def State.staleDue (s : State) (d : DriveIx) : Bool := decide ((s.drive d).stale = some 0)

/-- The time base's ticks that are due: the quarter tick, and with every fourth the ride-second tick (R178). -/
def State.ticksDue (s : State) : List Instr :=
  if s.clock.sinceQuarter < quarterMs then []
  else .quarterTick :: dueIf (decide (s.clock.quarters = 3)) (.rideSecondTick (Config.clockFirst s.clock.now))

/-- Whether the commit walk in progress has taken its time (R163). -/
def State.walkDue (s : State) : Bool :=
  if s.policy.commit = .walking then decide (walkTime s.policy.walk ≤ s.policy.walkAge) else false

/-- The events that the part's own timers and time base raise at this moment, in the order they are taken (log entry 11). -/
def State.due (s : State) : List Instr :=
  dueIf (decide (s.rim.watch = some 0)) .encoderWatchExpiry ++
    (driveIndices.filter s.staleDue).map Instr.stalenessTimerExpiry ++
    dueIf (decide (s.notices.flush = some 0)) .flushTimerExpiry ++
    dueIf (decide (s.policy.timer = some 0)) .commitTimerExpiry ++
    dueIf s.walkDue (.commitWalkCompletion s.policy.walk) ++
    s.ticksDue

/-- With no command waiting, a part at work lets 1 ms pass and queues what falls due; another idles (log entry 11). -/
def State.idle (s : State) : State :=
  match s.phase with
  | .running => { s.advance 1 with pending := s.pending ++ (s.advance 1).due }
  | .heldInReset => s
  | .unpowered => s

end Sys2Proof.Machine
end

