-- ==== Sys2Proof/Machine/Events.lean ====
section
/-! DEFINITION. The meanings of the commands that no request carries: the line, the notice frames, the resets and pins, the
ticks, the steps of a tick, the timers, and the steps of a commit. Each is taken by a part at work as one event, which closes
(`State.takeEvent`); the resets, the pins and the loss of power act in every phase. -/

namespace Sys2Proof.Machine

/-! ## The line (R2, R15, R16, R17) -/

/-- FRAME_ARRIVAL: a run of bytes is judged and handed on (R2 to R5). -/
def execFrameArrival (port : Port) (bytes : List Byte) (badStop : Bool) (s : State) : Host.Outcome State Fault Refusal :=
  .next (s.takeEvent fun s => s.arrive port bytes badStop)

/-- TRANSMIT_START: an idle transmitter chooses its next frame; a busy one, or one whose queues are empty, starts none
(R15, R16). -/
def execTransmitStart (port : Port) (s : State) : Host.Outcome State Fault Refusal :=
  .next (s.takeEvent fun s => s.choose port)

/-- The frame in transmission at a port is gone from the part (R17). -/
def State.endTransmission (s : State) (port : Port) : State :=
  match port with
  | .supervisor => s.withPath { s.path with supTx := none }
  | .field => s.withPath { s.path with fldTx := none }

/-- TRANSMIT_COMPLETION: the frame is gone and the transmitter chooses again (R17). -/
def execTransmitCompletion (port : Port) (s : State) : Host.Outcome State Fault Refusal :=
  .next (s.takeEvent fun s => (s.endTransmission port).choose port)

/-- NOTICE_FRAME_BUILD: NOTICE frames are built while the conditions of R14 hold (R14, R184, R185). -/
def execNoticeFrameBuild (s : State) : Host.Outcome State Fault Refusal := .next (s.takeEvent State.buildNotices)

/-! ## Resets, pins and power (R135, R136, R137, R187) -/

/-- COLD_RESET (R187). -/
def execColdReset (cause : ResetCause) (s : State) : Host.Outcome State Fault Refusal := .next (s.coldReset cause)

/-- END_OF_COLD_RESET (R187). -/
def execEndOfColdReset (modeHigh : Bool) (s : State) : Host.Outcome State Fault Refusal := .next (s.leaveReset modeHigh)

/-- POWER_LOSS (R137). -/
def execPowerLoss (s : State) : Host.Outcome State Fault Refusal := .next s.losePower

/-- STOP_IN_ASSERTION: the input goes active, and sets the stop latch of a part at work (R135). -/
def execStopInAssertion (s : State) : Host.Outcome State Fault Refusal :=
  .next ((s.withStopIn true).takeEvent fun s => s.setLatch 0)

/-- STOP_IN_RELEASE: the input goes inactive; the latch stays as it is (R136). -/
def execStopInRelease (s : State) : Host.Outcome State Fault Refusal := .next ((s.withStopIn false).takeEvent id)

/-! ## Ticks and the steps of a tick (R97, R98, R104, R178) -/

/-- QUARTER_TICK (R132, R178). -/
def execQuarterTick (s : State) : Host.Outcome State Fault Refusal := .next (s.takeEvent State.quarter)

/-- RIDE_SECOND_TICK (R96 to R104, R178 to R180). -/
def execRideSecondTick (clockFirst : Bool) (s : State) : Host.Outcome State Fault Refusal :=
  .next (s.takeEvent fun s => s.secondTick clockFirst)

/-- HOLD_DOWN_EXPIRY (R104). -/
def execHoldDownExpiry (s : State) : Host.Outcome State Fault Refusal := .next (s.takeEvent State.holdDownFall)

/-- CHANNEL_STALE (R98). -/
def execChannelStale (channel : ChannelIx) (s : State) : Host.Outcome State Fault Refusal :=
  .next (s.takeEvent fun s => s.channelStep channel .stale)

/-- CHANNEL_LIVE (R97). -/
def execChannelLive (channel : ChannelIx) (s : State) : Host.Outcome State Fault Refusal :=
  .next (s.takeEvent fun s => s.channelStep channel .live)

/-! ## Timers (R38, R131, R168, R182) -/

/-- ENCODER_WATCH_EXPIRY (R38). -/
def execEncoderWatchExpiry (s : State) : Host.Outcome State Fault Refusal := .next (s.takeEvent State.encoderExpiry)

/-- STALENESS_TIMER_EXPIRY (R131). -/
def execStalenessTimerExpiry (drive : DriveIx) (s : State) : Host.Outcome State Fault Refusal :=
  .next (s.takeEvent fun s => s.staleExpiry drive)

/-- FLUSH_TIMER_EXPIRY (R182). -/
def execFlushTimerExpiry (s : State) : Host.Outcome State Fault Refusal := .next (s.takeEvent State.flushExpiry)

/-- COMMIT_TIMER_EXPIRY (R168). -/
def execCommitTimerExpiry (s : State) : Host.Outcome State Fault Refusal := .next (s.takeEvent State.commitExpiry)

/-! ## The steps of a commit (R165, R166, R171) -/

/-- COMMIT_WALK_COMPLETION (R163 to R165). -/
def execCommitWalkCompletion (walk : Nat) (s : State) : Host.Outcome State Fault Refusal :=
  .next (s.takeEvent fun s => s.walkCompletion walk)

/-- SWAP: a PENDING commit with no grant held is swapped in (R165 to R167). -/
def execSwap (s : State) : Host.Outcome State Fault Refusal := .next (s.takeEvent State.trySwap)

/-- A deferred restart is carried out once no commit is in flight (R171). -/
def State.tryDeferred (s : State) : State := if s.inFlight then s else s.carryOutDeferred

/-- DEFERRED_WARM_RESTART (R171, R186). -/
def execDeferredWarmRestart (s : State) : Host.Outcome State Fault Refusal := .next (s.takeEvent State.tryDeferred)

end Sys2Proof.Machine
end

