-- ==== Sys2Proof/Machine/RequestCommands.lean ====
section
/-! DEFINITION. The meanings of the request commands: each is taken by a part at work as one event, tests room for its reply,
does what its rule gives, and is answered (R13, R176). A request that a frame carries reaches the same operations by
`State.takeRequest`. -/

namespace Sys2Proof.Machine

/-- READ_DIRECTORY (R175, R176). -/
def execReadDirectory (who : Requester) (first : Byte) (s : State) : Host.Outcome State Fault Refusal :=
  .next (s.takeEvent fun s => s.answer who fun s => s.doReadDirectory first)

/-- READ_TABLE (R161, R176). -/
def execReadTable (who : Requester) (table bank first count : Byte) (s : State) : Host.Outcome State Fault Refusal :=
  .next (s.takeEvent fun s => s.answer who fun s => s.doReadTable table bank first count)

/-- WRITE_STAGING (R162, R176). -/
def execWriteStaging (who : Requester) (bank table first count : Byte) (entries : List Byte) (s : State) :
    Host.Outcome State Fault Refusal :=
  .next (s.takeEvent fun s => s.answer who fun s => s.doWriteStaging bank table first count entries)

/-- COMMIT_STAGING (R163, R176). -/
def execCommitStaging (who : Requester) (bank : Byte) (s : State) : Host.Outcome State Fault Refusal :=
  .next (s.takeEvent fun s => s.answer who fun s => s.doCommitStaging bank)

/-- ABORT_COMMIT (R169, R176). -/
def execAbortCommit (who : Requester) (s : State) : Host.Outcome State Fault Refusal :=
  .next (s.takeEvent fun s => s.answer who State.doAbortCommit)

/-- REVERT_TO_FLOOR (R170, R176). -/
def execRevertToFloor (who : Requester) (s : State) : Host.Outcome State Fault Refusal :=
  .next (s.takeEvent fun s => s.answer who State.doRevertToFloor)

/-- READ_STATUS (R177, R176). -/
def execReadStatus (who : Requester) (s : State) : Host.Outcome State Fault Refusal :=
  .next (s.takeEvent fun s => s.answer who State.doReadStatus)

/-- SET_SERVICE (R64, R176). -/
def execSetService (who : Requester) (cabin service : Byte) (s : State) : Host.Outcome State Fault Refusal :=
  .next (s.takeEvent fun s => s.answer who fun s => s.doSetService cabin service)

/-- SET_OCCUPANCY (R65, R176). -/
def execSetOccupancy (who : Requester) (cabin occupancy : Byte) (s : State) : Host.Outcome State Fault Refusal :=
  .next (s.takeEvent fun s => s.answer who fun s => s.doSetOccupancy cabin occupancy)

/-- SET_OPERATOR_FLOOR (R106, R176). -/
def execSetOperatorFloor (who : Requester) (level : Byte) (s : State) : Host.Outcome State Fault Refusal :=
  .next (s.takeEvent fun s => s.answer who fun s => s.doSetOperatorFloor level)

/-- BEGIN_SWEEP (R155, R176). -/
def execBeginSweep (who : Requester) (s : State) : Host.Outcome State Fault Refusal :=
  .next (s.takeEvent fun s => s.answer who State.doBeginSweep)

/-- END_SWEEP (R155, R176). -/
def execEndSweep (who : Requester) (s : State) : Host.Outcome State Fault Refusal :=
  .next (s.takeEvent fun s => s.answer who State.doEndSweep)

/-- OPEN_BOARDING (R155, R176). -/
def execOpenBoarding (who : Requester) (s : State) : Host.Outcome State Fault Refusal :=
  .next (s.takeEvent fun s => s.answer who State.doOpenBoarding)

/-- LATCH_STOP (R135, R176). -/
def execLatchStop (who : Requester) (s : State) : Host.Outcome State Fault Refusal :=
  .next (s.takeEvent fun s => s.answer who State.doLatchStop)

/-- CLEAR_STOP (R136, R176). -/
def execClearStop (who : Requester) (s : State) : Host.Outcome State Fault Refusal :=
  .next (s.takeEvent fun s => s.answer who State.doClearStop)

/-- SET_CLOCK (R179, R176). -/
def execSetClock (who : Requester) (hours minutes seconds : Byte) (s : State) : Host.Outcome State Fault Refusal :=
  .next (s.takeEvent fun s => s.answer who fun s => s.doSetClock hours minutes seconds)

/-- SET_CLOSING_ALARM (R180, R176). -/
def execSetClosingAlarm (who : Requester) (hours minutes enable : Byte) (s : State) : Host.Outcome State Fault Refusal :=
  .next (s.takeEvent fun s => s.answer who fun s => s.doSetClosingAlarm hours minutes enable)

/-- RESUME_NOTICES (R185, R176). -/
def execResumeNotices (who : Requester) (s : State) : Host.Outcome State Fault Refusal :=
  .next (s.takeEvent fun s => s.answer who State.doResumeNotices)

/-- WARM_RESTART (R186, R176). -/
def execWarmRestart (who : Requester) (s : State) : Host.Outcome State Fault Refusal :=
  .next (s.takeEvent fun s => s.answer who State.doWarmRestart)

/-- ENVELOPE_WRITE (R173, R176). -/
def execEnvelopeWrite (who : Requester) (field : Byte) (value : BitVec 16) (s : State) : Host.Outcome State Fault Refusal :=
  .next (s.takeEvent fun s => s.answer who fun s => s.doEnvelopeWrite field value)

/-- ENVELOPE_LOCK (R174, R176). -/
def execEnvelopeLock (who : Requester) (s : State) : Host.Outcome State Fault Refusal :=
  .next (s.takeEvent fun s => s.answer who State.doEnvelopeLock)

end Sys2Proof.Machine
end

