-- ==== Sys2Proof/Machine/Dispatch.lean ====
section
/-! DEFINITION. The dispatch of a command to its meaning: one arm for each constructor. -/

namespace Sys2Proof.Machine

def exec (i : Instr) (s : State) : Host.Outcome State Fault Refusal :=
  match i with
  | .frameArrival port bytes badStop => Sys2Proof.Machine.execFrameArrival port bytes badStop s
  | .transmitStart port => Sys2Proof.Machine.execTransmitStart port s
  | .transmitCompletion port => Sys2Proof.Machine.execTransmitCompletion port s
  | .noticeFrameBuild => Sys2Proof.Machine.execNoticeFrameBuild s
  | .coldReset cause => Sys2Proof.Machine.execColdReset cause s
  | .stopInAssertion => Sys2Proof.Machine.execStopInAssertion s
  | .quarterTick => Sys2Proof.Machine.execQuarterTick s
  | .rideSecondTick clockFirst => Sys2Proof.Machine.execRideSecondTick clockFirst s
  | .holdDownExpiry => Sys2Proof.Machine.execHoldDownExpiry s
  | .channelStale channel => Sys2Proof.Machine.execChannelStale channel s
  | .channelLive channel => Sys2Proof.Machine.execChannelLive channel s
  | .encoderWatchExpiry => Sys2Proof.Machine.execEncoderWatchExpiry s
  | .stalenessTimerExpiry drive => Sys2Proof.Machine.execStalenessTimerExpiry drive s
  | .flushTimerExpiry => Sys2Proof.Machine.execFlushTimerExpiry s
  | .commitTimerExpiry => Sys2Proof.Machine.execCommitTimerExpiry s
  | .commitWalkCompletion walk => Sys2Proof.Machine.execCommitWalkCompletion walk s
  | .swap => Sys2Proof.Machine.execSwap s
  | .deferredWarmRestart => Sys2Proof.Machine.execDeferredWarmRestart s
  | .readDirectory who first => Sys2Proof.Machine.execReadDirectory who first s
  | .readTable who table bank first count => Sys2Proof.Machine.execReadTable who table bank first count s
  | .writeStaging who bank table first count entries => Sys2Proof.Machine.execWriteStaging who bank table first count entries s
  | .commitStaging who bank => Sys2Proof.Machine.execCommitStaging who bank s
  | .abortCommit who => Sys2Proof.Machine.execAbortCommit who s
  | .revertToFloor who => Sys2Proof.Machine.execRevertToFloor who s
  | .readStatus who => Sys2Proof.Machine.execReadStatus who s
  | .setService who cabin service => Sys2Proof.Machine.execSetService who cabin service s
  | .setOccupancy who cabin occupancy => Sys2Proof.Machine.execSetOccupancy who cabin occupancy s
  | .setOperatorFloor who level => Sys2Proof.Machine.execSetOperatorFloor who level s
  | .beginSweep who => Sys2Proof.Machine.execBeginSweep who s
  | .endSweep who => Sys2Proof.Machine.execEndSweep who s
  | .openBoarding who => Sys2Proof.Machine.execOpenBoarding who s
  | .latchStop who => Sys2Proof.Machine.execLatchStop who s
  | .clearStop who => Sys2Proof.Machine.execClearStop who s
  | .setClock who hours minutes seconds => Sys2Proof.Machine.execSetClock who hours minutes seconds s
  | .setClosingAlarm who hours minutes enable => Sys2Proof.Machine.execSetClosingAlarm who hours minutes enable s
  | .resumeNotices who => Sys2Proof.Machine.execResumeNotices who s
  | .warmRestart who => Sys2Proof.Machine.execWarmRestart who s
  | .envelopeWrite who field value => Sys2Proof.Machine.execEnvelopeWrite who field value s
  | .envelopeLock who => Sys2Proof.Machine.execEnvelopeLock who s
  | .stopInRelease => Sys2Proof.Machine.execStopInRelease s
  | .endOfColdReset modeHigh => Sys2Proof.Machine.execEndOfColdReset modeHigh s
  | .powerLoss => Sys2Proof.Machine.execPowerLoss s

end Sys2Proof.Machine
end

