-- ==== Sys2Proof/Safety.lean ====
section
/-! DEFINITION. The terms in which claims about the part are stated: which blocks of the state a command may change, what its
answer is, and what holds of every state the part can be in (the bounds of its queues, the ceilings and the rim-hold line that
follow their inputs, the level at or above the operator floor, one grant a cabin). -/

namespace Sys2Proof.Machine

/-! ## Frames -/

/-- The parts of the state, by name. -/
inductive Block where
  | pending
  | phase
  | mode
  | stopIn
  | clock
  | path
  | rim
  | cabins
  | board
  | wind
  | governor
  | sweep
  | policy
  | envelope
  | notices
  deriving DecidableEq, Repr

/-- Two states have a part in common. -/
def State.same (s t : State) : Block → Prop
  | .pending => t.pending = s.pending
  | .phase => t.phase = s.phase
  | .mode => t.mode = s.mode
  | .stopIn => t.stopIn = s.stopIn
  | .clock => t.clock = s.clock
  | .path => t.path = s.path
  | .rim => t.rim = s.rim
  | .cabins => t.cabins = s.cabins
  | .board => t.board = s.board
  | .wind => t.wind = s.wind
  | .governor => t.governor = s.governor
  | .sweep => t.sweep = s.sweep
  | .policy => t.policy = s.policy
  | .envelope => t.envelope = s.envelope
  | .notices => t.notices = s.notices

/-- From `s` to `t` nothing changes outside the listed parts. -/
def State.OnlyChanges (s t : State) (bs : List Block) : Prop := ∀ b : Block, b ∉ bs → s.same t b

/-! ## Requests -/

/-- A part at work with room for a reply: the state in which a request is carried out (R13, R176, R187). -/
def State.Takes (s : State) : Prop := s.phase = .running ∧ s.path.part.length < partRoom

/-- The state after a reply of the given outcome and data has been admitted to the part queue (R8, R21). -/
def State.replied (s : State) (who : Requester) (o : ReplyOutcome) (data : List Byte) : State :=
  s.enqueuePart who.node codeReply (be2 who.tag.toNat ++ [byte o.code] ++ data)

/-! ## The queues -/

/-- The kinds and subjects of the frames that wait in the origin queue. -/
def FramePath.originKeys (p : FramePath) : List OriginKey := p.origin.map Originated.key

/-- The bounds of the four outgoing queues and of the run count (R10 to R13, R16). -/
structure FramePath.Bounded (p : FramePath) : Prop where
  supForward : p.supForward.length ≤ 16
  fldForward : p.fldForward.length ≤ 16
  part       : p.part.length ≤ 8
  origin     : p.originKeys.Nodup
  runCount   : p.runCount ≤ 4

/-- The bounds of the combining buffer and the notice queue: at most one record a key in the buffer, all of combinable kinds,
and the flush timer running exactly while the buffer holds a record (R181 to R184). -/
structure NoticeUnit.Sound (u : NoticeUnit) : Prop where
  buffer     : u.buffer.length ≤ 8
  keys       : u.buffer.Pairwise fun m n => m.sameKey n = false
  combinable : ∀ m ∈ u.buffer, m.kind.combinable = true
  flush      : u.flush = none ↔ u.buffer = []
  queue      : u.queue.length ≤ 32

/-- No restart is under way and no notice waits for the close of an event, as it is between events (R186). -/
def NoticeUnit.Between (u : NoticeUnit) : Prop := u.restarting = false ∧ u.atClose = []

/-- Every queue of the part is within its bounds. -/
def State.QueuesBounded (s : State) : Prop := s.path.Bounded ∧ s.notices.Sound ∧ s.notices.Between

/-! ## The ceilings -/

/-- The conditions the Boarding Screen keeps are those of the doors, the grants and the bank as they stand (R85 to R87). -/
def State.ConditionsAgree (s : State) : Prop :=
  s.board.doorStop = s.doorStopNow ∧ s.board.creep = s.creepNow ∧ s.board.creepValue = s.creepValueNow

/-- The ceilings are those of their inputs as they stand, and in a part at work so is the rim-hold line
(R118 to R120, R137). -/
def State.CeilingsAgree (s : State) : Prop :=
  s.governor.ceilingF = s.forwardNow ∧ s.governor.ceilingV = s.reverseNow ∧
    (s.phase = .running → s.governor.rimHold = rimHoldFor s.mode s.forwardNow s.reverseNow)

/-- The bank in force is not the bank that is written (R158, R162, R163). -/
def State.BanksApart (s : State) : Prop :=
  s.policy.active ≠ s.policy.staging.toBankNo ∧
    (s.policy.commitBank = none ∨ s.policy.commitBank = some s.policy.staging)

/-- The door stop, the creep, both ceilings and the rim-hold line follow their inputs. -/
def State.Governed (s : State) : Prop := s.BanksApart ∧ s.ConditionsAgree ∧ s.CeilingsAgree

/-! ## Levels and grants -/

/-- The level is not below the operator floor (R103 to R106). -/
def State.AboveFloor (s : State) : Prop := s.wind.floor.code ≤ s.wind.level.code

/-- No cabin holds two grants (R71). -/
def State.OneGrantEach (s : State) : Prop :=
  ∀ g h : Grant, s.board.grants.a = some g → s.board.grants.b = some h → g.cabin ≠ h.cabin

/-- A channel's running sum and filled count are those of its sustained ring, its rings keep within their places, a
WARMING channel has pushed as many seconds as its warm count says, a LIVE one holds three at least, and the others none
(R94, R97, R98). -/
structure Channel.RingsAgree (x : Channel) : Prop where
  sum     : x.sustSum = x.sustRing.sum
  filled  : x.filled = x.sustRing.length
  sust    : x.sustRing.length ≤ 60
  gust    : x.gustRing.length ≤ 3
  warming : x.state = .warming → x.warm < 3 ∧ x.sustRing.length = x.warm ∧ x.gustRing.length = x.warm
  live    : x.state = .live → 3 ≤ x.sustRing.length ∧ x.gustRing.length = 3
  silent  : x.state = .unassigned ∨ x.state = .stale → x.sustRing = [] ∧ x.gustRing = []

/-- The live count is the number of LIVE channels, and the level is below neither the operator floor nor, while they are fewer
than the quorum, the blind level (R101, R105). -/
structure State.LevelLaw (s : State) : Prop where
  live  : s.wind.live = s.liveChannels.length
  floor : s.AboveFloor
  blind : s.belowQuorum = true → s.active.floorsRecord.blind.code ≤ s.wind.level.code

/-- The law of the sweep (R141): the state is IDLE while no cause holds, and otherwise SUSPENDED at PARK, DONE where the list has
no cabin 1 to N, and ACTIVE where it has one; the list is empty while the state is IDLE, holds no cabin twice, and holds exactly the
cabins that carry a mark. (A cabin above N keeps its place unseen, log entry 29.) Grants are held by cabins the register has. -/
structure State.SweepLaw (s : State) : Prop where
  idle      : s.sweep.state = .idle ↔ ¬ (s.sweep.wind = true ∨ s.sweep.close = true ∨ s.sweep.operator = true)
  suspended : s.sweep.state ≠ .idle → (s.sweep.state = .suspended ↔ s.wind.level = .park)
  done      : s.sweep.state ≠ .idle → s.wind.level ≠ .park →
                (s.sweep.state = .done ↔ ∀ c ∈ s.sweep.list, ¬ (1 ≤ c ∧ c ≤ s.envelope.count))
  empty     : s.sweep.state = .idle → s.sweep.list = []
  nodup     : s.sweep.list.Nodup
  cabins    : ∀ c ∈ s.sweep.list, 1 ≤ c ∧ c ≤ 64
  marks     : ∀ c, 1 ≤ c → c ≤ 64 → (c ∈ s.sweep.list ↔ (s.cabin c).mark ≠ none)
  grants    : ∀ b g, s.board.grants.get b = some g → 1 ≤ g.cabin ∧ g.cabin ≤ 64

/-- Every written field of the envelope holds a value of its range (R173). -/
structure Envelope.InRange (e : Envelope) : Prop where
  cabins     : ∀ n ∈ e.cabins, 8 ≤ n ∧ n ≤ 64
  capacity   : ∀ n ∈ e.capacity, 1 ≤ n ∧ n ≤ 40
  maxForward : ∀ n ∈ e.maxForward, 1 ≤ n ∧ n ≤ 600
  maxReverse : ∀ n ∈ e.maxReverse, n ≤ 200
  berths     : ∀ n ∈ e.berths, 1 ≤ n ∧ n ≤ 2
  ownNode    : ∀ n ∈ e.ownNode, n ≠ 255
  supNode    : ∀ n ∈ e.supNode, n ≠ 255
  gustCap    : ∀ n ∈ e.gustCap, 150 ≤ n ∧ n ≤ 400

/-- In a part with power no transmitter idles while a frame waits for it, and no record waits while the part queue has room for
its frame (R14 to R17). -/
structure State.Fed (s : State) : Prop where
  supervisor : s.phase ≠ .unpowered → s.path.supTx = none → s.path.supForward = [] ∧ s.path.part = []
  field      : s.phase ≠ .unpowered → s.path.fldTx = none → s.path.origin = [] ∧ s.path.fldForward = []
  notices    : s.phase ≠ .unpowered → s.notices.queue = [] ∨ noticeRoom ≤ s.path.part.length

/-! ## Arrivals -/

/-- A frame that passes the arrival checks when it comes in (R2 to R4). -/
def Frame.Good (f : Frame) : Prop := formOk f f.payload.length = true ∧ f.check = crc f.body

/-- The state in which an arrival at a port is judged: that port's staging point is empty again (R2). -/
def State.received (s : State) (p : Port) : State := s.withPath (s.path.setStaging p Staging.empty)

/-- What the Sorter makes of a frame taken in at the field port before it is noted by role: a frame to the own node is refused, and
any other is dealt with by its treatment (R25, R27, R31, R33). -/
def State.sorted (s : State) (f : Frame) : State :=
  if f.dest = s.envelope.own then (s.received .field).takeOwn .field f else (s.received .field).treat .field f

/-- Whether a frame taken in at the field port is a report of the class of its source's role, which its consumer notes (R34). -/
def State.notes (s : State) (f : Frame) : Bool :=
  match f.kind, s.active.roleOf f.src with
  | .rimReport, some .encoder => true
  | .windReport, some (.anemometer _) => true
  | .doorReport, some .hub => true
  | .countReport, some (.station _) => true
  | .gateReport, some (.station _) => true
  | _, _ => false

end Sys2Proof.Machine
end

