-- ==== Sys2Proof/Certificates/Slice0/Obligations.lean ====
section
/-! DEFINITION. The statements for the provers, one definition each: the machine as a whole, its invariants, the rules of the
screens and ceilings, frames, notices, time, wind and sweep, the tables and the commit, and the resets. -/

section

open Sys2Proof Sys2Proof.Machine

/-! ## The machine as a whole -/

/-- A step takes the command at the front of the queue and runs it on the state whose queue is the rest. -/
def Obligations.StepRunsFrontCommand : Prop :=
  ∀ (s : State) (c : Instr) (rest : List Instr),
    step { s with pending := c :: rest } = exec c { s with pending := rest }

/-- Every command, in every state, answers a next state, and leaves the queue of waiting commands as it was. -/
def Obligations.EveryCommandCompletes : Prop :=
  ∀ (c : Instr) (s : State), ∃ t : State, exec c s = .next t ∧ t.pending = s.pending

/-- With no command waiting, a part that is not at work idles, and a part at work lets 1 ms pass at its time base and at every
running timer and queues the expiries and ticks that then fall due. The step is the model's own (log entry 11); the periods
and durations are those of R163 and R178. -/
def Obligations.IdlePassesAMillisecond : Prop :=
  ∀ s : State, s.pending = [] →
    (s.phase ≠ .running → step s = .next s) ∧
    (s.phase = .running → ∃ t : State, step s = .next t ∧
      s.OnlyChanges t [.pending, .clock, .rim, .governor, .policy, .notices] ∧
      t.clock = { s.clock with now := s.clock.now + 1, sinceQuarter := s.clock.sinceQuarter + 1 } ∧
      t.rim = { s.rim with watch := s.rim.watch.map (· - 1) } ∧
      t.notices = { s.notices with flush := s.notices.flush.map (· - 1) } ∧
      t.policy = { s.policy with timer := s.policy.timer.map (· - 1), walkAge := s.policy.walkAge + 1 } ∧
      t.governor = { s.governor with drives := t.governor.drives } ∧
      (∀ d : DriveIx, t.drive d = { s.drive d with stale := (s.drive d).stale.map (· - 1) }) ∧
      (Instr.quarterTick ∈ t.pending ↔ 250 ≤ s.clock.sinceQuarter + 1) ∧
      ((∃ b, Instr.rideSecondTick b ∈ t.pending) ↔ 250 ≤ s.clock.sinceQuarter + 1 ∧ s.clock.quarters = 3) ∧
      (Instr.encoderWatchExpiry ∈ t.pending ↔ ∃ ms, s.rim.watch = some ms ∧ ms ≤ 1) ∧
      (∀ d : DriveIx, Instr.stalenessTimerExpiry d ∈ t.pending ↔ ∃ ms, (s.drive d).stale = some ms ∧ ms ≤ 1) ∧
      (Instr.flushTimerExpiry ∈ t.pending ↔ ∃ ms, s.notices.flush = some ms ∧ ms ≤ 1) ∧
      (Instr.commitTimerExpiry ∈ t.pending ↔ ∃ ms, s.policy.timer = some ms ∧ ms ≤ 1) ∧
      (s.policy.commit = .walking → 19 ≤ s.policy.walkAge → Instr.commitWalkCompletion s.policy.walk ∈ t.pending))

/-- A part held in reset or without power takes no event and no request: only its pins, its resets and the loss of power act on
it, and of these STOP_IN moves nothing but its level (that a part not at work holds the level of the pin is log entry 38, and
that a part without power keeps all it held is log entry 15: the model's). In a part at work whose queues are settled, a
request that finds the part queue full is discarded and leaves no trace (R13, R137, R187). -/
def Obligations.CommandsTheStateShutsOut : Prop :=
  (∀ (c : Instr) (s : State), s.phase ≠ .running → (∀ cause, c ≠ .coldReset cause) → (∀ m, c ≠ .endOfColdReset m) →
    c ≠ .stopInAssertion → c ≠ .stopInRelease → c ≠ .powerLoss → exec c s = .next s) ∧
  (∀ s : State, s.phase ≠ .running →
    exec .stopInAssertion s = .next { s with stopIn := true } ∧ exec .stopInRelease s = .next { s with stopIn := false }) ∧
  (∀ (c : Instr) (s : State), c.requester ≠ none → s.phase = .running → 8 ≤ s.path.part.length → s.Fed → s.notices.Between →
    exec c s = .next s)

/-! ## Invariants -/

/-- Every step keeps the queues within their bounds: forward queues of 16, a part queue of 8, an origin queue with one frame a
kind and subject, a forward run count of at most 4, a combining buffer of 8 with one record a key, and a notice queue of 32
(R10 to R14, R16, R181 to R184). -/
def Obligations.QueuesStayBounded : Prop :=
  ∀ s t : State, s.QueuesBounded → step s = .next t → t.QueuesBounded

/-- Every step keeps the door-stop and creep conditions, both ceilings and the rim-hold line those of their inputs as they
stand after it (R85 to R87, R118 to R120, R137). -/
def Obligations.CeilingsFollowEveryStep : Prop :=
  ∀ s t : State, s.Governed → step s = .next t → t.Governed

/-- Every step keeps the law of the level: never below the operator floor, and never below the blind level while fewer LIVE
channels than the quorum exist (R101, R105). The bank in force is apart from the one that is written (R158, R166). -/
def Obligations.LevelLawIsKept : Prop :=
  ∀ s t : State, s.BanksApart → s.LevelLaw → step s = .next t → t.BanksApart ∧ t.LevelLaw

/-- Every step keeps that no cabin holds two grants (R71). -/
def Obligations.OneGrantEachIsKept : Prop :=
  ∀ s t : State, s.OneGrantEach → step s = .next t → t.OneGrantEach

/-- Every step keeps the wind rings: sums and counts agree, at most 3 and 60 entries, and a LIVE channel holds at least three
entries in each (R97, R98). -/
def Obligations.WindRingsAgreeIsKept : Prop :=
  ∀ s t : State, (∀ c : ChannelIx, (s.wind.channels[c]).RingsAgree) → step s = .next t →
    ∀ c : ChannelIx, (t.wind.channels[c]).RingsAgree

/-- Every step keeps the law of the sweep: the state is that of the causes, the level and the list of cabins 1 to N, the list is
empty while the state is IDLE, holds no cabin twice, and holds exactly the cabins that carry a mark (R141). -/
def Obligations.SweepLawIsKept : Prop :=
  ∀ s t : State, s.envelope.InRange → s.SweepLaw → step s = .next t → t.SweepLaw

/-- Every step keeps the transmitters fed: no transmitter of a part with power idles while a frame waits for it, and no notice
waits while its frame would find room (R14 to R17). -/
def Obligations.TransmittersStayFed : Prop :=
  ∀ s t : State, s.Fed → step s = .next t → t.Fed

/-- Every step keeps the envelope's values within their ranges, and changes no LOCKED envelope (R173, R174). -/
def Obligations.EnvelopeStaysInRange : Prop :=
  ∀ s t : State, s.envelope.InRange → step s = .next t →
    t.envelope.InRange ∧ (s.envelope.locked = true → t.envelope = s.envelope)

/-- No step writes the bank in force: while the active bank stays the same, so do its contents (R166). -/
def Obligations.BankInForceIsNotWritten : Prop :=
  ∀ s t : State, s.BanksApart → step s = .next t →
    t.BanksApart ∧ (t.policy.active = s.policy.active → t.active = s.active)

/-- A stop latch that is SET is cleared only by a Clear Stop, taken by a part at work while STOP_IN is inactive: the command, or
the bytes at the supervisor port that are judged to be a supervisor's REQUEST frame to the own node with Clear Stop's code and no
arguments (R27, R135, R136). -/
def Obligations.OnlyClearStopClearsTheLatch : Prop :=
  ∀ (c : Instr) (s t : State), s.governor.latch = true → exec c s = .next t → t.governor.latch = false →
    s.phase = .running ∧ s.stopIn = false ∧
      ((∃ who, c = .clearStop who) ∨
        ∃ (bytes : List Byte) (badStop : Bool) (f : Frame) (t1 t0 : Byte), c = .frameArrival .supervisor bytes badStop ∧
          judge (Staging.fill bytes badStop) = .taken f ∧ f.dest = s.envelope.own ∧ f.kind = .request ∧
          f.payload = [15, t1, t0] ∧ s.requestSupervisor f.src = true)

/-- The state right after reset meets every invariant above. -/
def Obligations.ResetMeetsTheInvariants : Prop :=
  State.reset.QueuesBounded ∧ State.reset.Governed ∧ State.reset.LevelLaw ∧ State.reset.OneGrantEach ∧
    (∀ c : ChannelIx, (State.reset.wind.channels[c]).RingsAgree) ∧ State.reset.Fed ∧ State.reset.envelope.InRange ∧
    State.reset.SweepLaw

/-! ## Ceilings, speeds and queues -/

/-- The ceilings of a part whose ceilings follow their inputs are those of R118 and R119. -/
def Obligations.CeilingsFollowTheirRules : Prop :=
  ∀ s : State, s.Governed →
    let cEnv := s.envelope.forward
    let cWind := s.active.ceiling s.wind.level
    let cBoard := if s.governor.latch = true ∨ s.board.doorStop = true then 0
      else if s.board.creep = true then s.board.creepValue else cEnv
    let cPos := if s.rim.known = true then cEnv else s.active.gov.blind
    let f := s.governor.ceilingF
    let v := s.governor.ceilingV
    f ≤ cEnv ∧ f ≤ cWind ∧ f ≤ cBoard ∧ f ≤ cPos ∧ (f = cEnv ∨ f = cWind ∨ f = cBoard ∨ f = cPos) ∧
    (s.wind.level = .park ∨ s.governor.latch = true ∨ s.board.doorStop = true ∨ s.policy.active = .floor → f = 0) ∧
    (s.board.grants.a = none ∧ s.board.grants.b = none ∧
        (s.wind.level = .opened ∨ s.wind.level = .watch ∨ s.wind.level = .reduced) ∧ s.active.gov.reverse = true ∧ 0 < f →
      v = min s.envelope.reverse f) ∧
    (¬ (s.board.grants.a = none ∧ s.board.grants.b = none ∧
        (s.wind.level = .opened ∨ s.wind.level = .watch ∨ s.wind.level = .reduced) ∧ s.active.gov.reverse = true ∧ 0 < f) →
      v = 0) ∧
    v ≤ f

/-- The door-stop condition, the creep condition and the creep value, by R85 and R86. -/
def Obligations.DoorStopAndCreep : Prop :=
  ∀ s : State,
    (s.doorStopNow = true ↔
      (∃ c, 1 ≤ c ∧ c ≤ s.envelope.count ∧ s.holdsGrant c = false ∧
        ((s.cabin c).door = .unlocked ∨ (s.cabin c).door = .opened ∨ (s.cabin c).door = .fault)) ∨
      ∃ b g, s.board.grants.get b = some g ∧ (g.state = .late ∨ g.kind = .assist)) ∧
    (s.creepNow = true ↔
      (∃ b g, s.board.grants.get b = some g ∧ g.kind = .standard ∧ (g.state = .granted ∨ g.state = .withdrawing)) ∨
      ∃ c, 1 ≤ c ∧ c ≤ s.envelope.count ∧ (s.cabin c).door = .unknown) ∧
    (∀ b z, s.creepsAt b = true → s.active.berth b = some z →
      s.creepValueNow ≤ z.creep ∧
        ∃ b' z', s.creepsAt b' = true ∧ s.active.berth b' = some z' ∧ s.creepValueNow = z'.creep) ∧
    ((∀ b, s.creepsAt b = false) → ∀ b z, s.active.berth b = some z →
      s.creepValueNow ≤ z.creep ∧ ∃ b' z', s.active.berth b' = some z' ∧ s.creepValueNow = z'.creep) ∧
    ((∀ b, s.active.berth b = none) → s.creepValueNow = 0)

/-- The target and the output of a speed order (R123, R124), and that the output never leaves the ceilings. -/
def Obligations.SpeedTargetAndOutput : Prop :=
  ∀ (r s : Int) (f v credit : Nat),
    let t := speedTarget r f v
    let out := (speedOutput t s credit).1
    let left := (speedOutput t s credit).2
    let reversal := s ≠ 0 ∧ (0 < t ∧ s < 0 ∨ t < 0 ∧ 0 < s)
    (0 ≤ r → t = min r f) ∧ (r < 0 → t = max r (-v)) ∧
    (reversal → out = 0 ∧ left = credit) ∧
    (¬ reversal → t.natAbs ≤ s.natAbs → out = t ∧ left = credit) ∧
    (¬ reversal → s.natAbs < t.natAbs →
      let rise := min (t.natAbs - s.natAbs) (credit / 1000)
      out = (if 0 < t then s + rise else s - rise) ∧ left + rise * 1000 = credit) ∧
    -(v : Int) ≤ out ∧ out ≤ f

/-- The origin queue never lacks room (R12): with no two waiting frames of a kind and subject it holds at most 14, and an
originated frame is always admitted, in the place of the one it overtakes or at the tail, with no notice (R11). -/
def Obligations.OriginQueueNeverLacksRoom : Prop :=
  ∀ s : State, s.path.originKeys.Nodup →
    s.path.origin.length ≤ 14 ∧
    (s.path.originKeys.filter fun k => match k with | .substitute _ => true | _ => false).length ≤ 8 ∧
    (s.path.originKeys.filter fun k => match k with | .doorLock _ => true | _ => false).length ≤ 2 ∧
    (s.path.originKeys.filter fun k => match k with | .gateClose _ => true | _ => false).length ≤ 2 ∧
    (s.path.originKeys.filter fun k => match k with | .beacon _ => true | _ => false).length ≤ 2 ∧
    ∀ (key : OriginKey) (dest cls : Byte) (payload : List Byte),
      let t := s.originate key dest cls payload
      let f := Frame.build dest s.envelope.own cls flagOrigin s.path.fieldSeq payload
      t.notices = s.notices ∧ t.path.originKeys.Nodup ∧ { key := key, frame := f } ∈ t.path.origin ∧
      (key ∈ s.path.originKeys → t.path.originKeys = s.path.originKeys) ∧
      (key ∉ s.path.originKeys → t.path.origin = s.path.origin ++ [{ key := key, frame := f }])

/-! ## Frames -/

/-- What a port takes in is exactly the bytes of the frames that pass the checks: a good frame's bytes are judged to be that
frame, and a run of bytes that is judged to be a frame is that frame's bytes, every one (R2, R3, R4, R20). -/
def Obligations.FrameBytesRoundTrip : Prop :=
  (∀ f : Frame, f.Good → judge (Staging.fill f.bytes false) = .taken f) ∧
  (∀ (bytes : List Byte) (badStop : Bool) (f : Frame), judge (Staging.fill bytes badStop) = .taken f →
    f.Good ∧ badStop = false ∧ f.bytes = bytes)

/-- A REQUEST frame from a supervisor, at the supervisor port of a part at work, runs the very command its payload spells
(R21, R24, R27, R176). -/
def Obligations.RequestFrameRunsItsCommand : Prop :=
  ∀ (c : Instr) (who : Requester) (payload : List Byte) (flags seq : Byte) (s : State),
    c.wellFormed = true → requestPayload c = some payload → c.requester = some who →
    s.phase = .running → s.path.supStaging = Staging.empty → s.requestSupervisor who.node = true →
    exec (.frameArrival .supervisor (Frame.build s.envelope.own who.node codeRequest flags seq payload).bytes false) s =
      exec c s

/-- The treatment of a frame is the strictest among the entries of the map that match it, or the direction's default where none
does, and an order travelling to the field that would be passed is screened (R28 to R30). R30 speaks of two raises and spells out
one: that there is this one alone is the model's (log entry 42). -/
def Obligations.TreatmentIsTheStrictest : Prop :=
  ∀ (d : Direction) (f : Frame) (s : State),
    let matching := (s.active.map.toList.filterMap id).filter fun m => m.matches d f
    let mapped := s.active.mapTreatment d f
    (matching = [] → mapped = s.active.defaultFor d) ∧
    (matching ≠ [] → (∃ m ∈ matching, m.treatment = mapped) ∧ ∀ m ∈ matching, m.treatment.code ≤ mapped.code) ∧
    (d = .toField → (f.kind = .speedOrder ∨ f.kind = .doorOrder ∨ f.kind = .gateOrder) →
      s.treatmentOf d f = if mapped = .pass then .screen else mapped) ∧
    ((d = .toSupervisor ∨ ¬ (f.kind = .speedOrder ∨ f.kind = .doorOrder ∨ f.kind = .gateOrder)) →
      s.treatmentOf d f = mapped)

/-- A run of bytes that fails the check is dropped with LINK BAD_CHECK, and a frame whose form is wrong, or whose Length byte is
not the length of its payload, with LINK MALFORMED; neither has another effect (R2, R4, R6). -/
def Obligations.DroppedArrivalPostsLink : Prop :=
  ∀ (p : Port) (s : State), s.phase = .running →
    (∀ (bytes : List Byte) (badStop : Bool),
      (bytes.length < 8 ∨ 56 < bytes.length ∨ badStop = true ∨
        crc (bytes.take (bytes.length - 2)) ≠ BitVec.ofNat 16 (beNat (bytes.drop (bytes.length - 2)))) →
      exec (.frameArrival p bytes badStop) s =
        .next ((s.received p).post .link false (match p with | .supervisor => 0 | .field => 1) 0 255 255 255).close) ∧
    (∀ (f : Frame) (len : Byte), f.payload.length ≤ 48 →
      (len.toNat ≠ f.payload.length ∨ formOk f f.payload.length = false) →
      let body := [f.dest, f.src, f.cls, f.flags, f.seq, len] ++ f.payload
      exec (.frameArrival p (body ++ be2 (crc body).toNat) false) s =
        .next ((s.received p).post .link false (match p with | .supervisor => 0 | .field => 1) 1 f.cls f.dest f.src).close)

/-- A frame that the map passes is admitted at the tail of the other port's forward queue while that holds fewer than 16 frames,
and otherwise dropped with LINK CONGESTION for that port; from the field port that is so whether or not its source holds a role, and
a frame that is no report of its source's role is handed to no block (R5, R6, R10, R34). -/
def Obligations.PassedFrameIsForwarded : Prop :=
  ∀ (f : Frame) (s : State), s.phase = .running → f.Good → f.dest ≠ s.envelope.own →
    (s.treatmentOf .toField f = .pass →
      let r := s.received .supervisor
      (s.path.fldForward.length < 16 →
        exec (.frameArrival .supervisor f.bytes false) s =
          .next (r.withPath { r.path with fldForward := s.path.fldForward ++ [f] }).close) ∧
      (16 ≤ s.path.fldForward.length →
        exec (.frameArrival .supervisor f.bytes false) s = .next (r.post .link false 1 2 f.cls f.dest f.src).close)) ∧
    (s.treatmentOf .toSupervisor f = .pass →
      let r := s.received .field
      (s.path.supForward.length < 16 → s.sorted f = r.withPath { r.path with supForward := s.path.supForward ++ [f] }) ∧
      (16 ≤ s.path.supForward.length → s.sorted f = r.post .link false 0 2 f.cls f.dest f.src)) ∧
    (s.notes f = false → exec (.frameArrival .field f.bytes false) s = .next (s.sorted f).close)

/-- The Sorter's other outcomes. A frame to the own node that is no request is dropped UNEXPECTED, and a request from the field
port or a node that is no supervisor NOT_SUPERVISOR (R27). A barred frame is dropped BARRED (R31). A screened order from a
node that is no supervisor is refused NOT_SUPERVISOR, one to node 255 BROADCAST, and a SPEED or GATE ORDER to a node without
its role is forwarded unscreened (R32). A screened frame of any other kind is forwarded if it lies in the site's ranges, and
otherwise dropped BAD_FIELD (R33). In MONITOR mode such an order is forwarded with its notice flagged, and a SPEED ORDER to a
drive sets that drive's speed (R35). Every frame of the field port is dealt with by its treatment, whether or not its source
holds a role, before it is noted by that role; what its consumer does leaves the queues to the supervisor side as the
treatment left them, unless a deferred restart comes with it (R25, R34). A DOOR or COUNT REPORT that names a cabin above N
raises BAD_FIELD once (R34). The model's are: that the notices of the treatment come before those of the noting (log entry
19), that a SPEED ORDER to the supervisor side is judged by its Source (log entry 20), and that a broadcast SPEED ORDER sets
no drive's speed (log entry 45). -/
def Obligations.SorterDealsWithArrivals : Prop :=
  ∀ (f : Frame) (s : State), s.phase = .running → f.Good →
    let order := f.kind = .speedOrder ∨ f.kind = .doorOrder ∨ f.kind = .gateOrder
    let subject : Byte :=
      if f.kind = .doorOrder ∨ f.kind = .doorReport ∨ f.kind = .countReport then f.payload.headD 0
      else if f.kind = .speedOrder ∨ f.kind = .gateOrder ∨ f.kind = .beaconOrder then f.dest else f.src
    let inRange (side : Byte) : Prop := match f.kind with
      | .doorOrder | .doorReport | .countReport => (f.payload.headD 0).toNat ≤ s.envelope.count
      | .gateOrder | .gateReport | .beaconOrder => ∃ b, s.active.roleOf side = some (.station b)
      | .speedOrder => ∃ d, s.active.roleOf side = some (.drive d)
      | .rimReport => s.active.roleOf f.src = some .encoder
      | .windReport => ∃ c, s.active.roleOf f.src = some (.anemometer c)
      | .request | .reply | .notice | .other => True
    let arrive (p : Port) := exec (.frameArrival p f.bytes false) s
    let told (p : Port) (reason : Byte) := (s.received p).post .refused false subject reason f.cls f.dest f.src
    let refused (p : Port) (reason : Byte) := arrive p = .next (told p reason).close
    let orderRefused (reason : Byte) : Prop :=
      (s.mode = .screen → refused .supervisor reason) ∧
      (s.mode = .monitor → ∃ u : State,
        arrive .supervisor =
          .next ((u.post .refused true subject reason f.cls f.dest f.src).offerForward .field f).close ∧
        (∀ d hi lo brake, f.kind = .speedOrder → f.payload = [hi, lo, brake] → s.active.roleOf f.dest = some (.drive d) →
          u = (s.received .supervisor).withDrive d { s.drive d with speed := signed2 hi lo }) ∧
        ((f.kind ≠ .speedOrder ∨ ∀ d, s.active.roleOf f.dest ≠ some (.drive d)) → u = s.received .supervisor))
    let aboveN := (f.kind = .doorReport ∧ s.active.roleOf f.src = some .hub ∨
        f.kind = .countReport ∧ ∃ b, s.active.roleOf f.src = some (.station b)) ∧
      s.present (f.payload.headD 0).toNat = false
    (f.dest = s.envelope.own →
      (f.kind = .request → s.requestSupervisor f.src = false → refused .supervisor 2) ∧
      (f.kind ≠ .request → refused .supervisor 3) ∧
      s.sorted f = told .field (if f.kind = .request then 2 else 3) ∧
      (aboveN → arrive .field = .next ((told .field 3).post .refused false subject 4 f.cls f.dest f.src).close)) ∧
    (f.dest ≠ s.envelope.own →
      (s.treatmentOf .toField f = .bar → (order → orderRefused 1) ∧ (¬ order → refused .supervisor 1)) ∧
      (s.treatmentOf .toField f = .screen → order →
        (s.orderSupervisor f.src = false → orderRefused 2) ∧
        (s.orderSupervisor f.src = true → f.dest = 255 → orderRefused 5) ∧
        (s.orderSupervisor f.src = true → f.dest ≠ 255 →
          (f.kind = .speedOrder ∧ (∀ d, s.active.roleOf f.dest ≠ some (.drive d)) ∨
            f.kind = .gateOrder ∧ ∀ b, s.active.roleOf f.dest ≠ some (.station b)) →
          arrive .supervisor = .next ((s.received .supervisor).offerForward .field f).close)) ∧
      (s.treatmentOf .toField f = .screen → ¬ order →
        (inRange f.dest → arrive .supervisor = .next ((s.received .supervisor).offerForward .field f).close) ∧
        (¬ inRange f.dest → refused .supervisor 4)) ∧
      (s.treatmentOf .toSupervisor f = .pass → s.sorted f = (s.received .field).offerForward .supervisor f) ∧
      (s.treatmentOf .toSupervisor f = .bar → s.sorted f = told .field 1) ∧
      (s.treatmentOf .toSupervisor f = .screen →
        (inRange f.src → s.sorted f = (s.received .field).offerForward .supervisor f) ∧
        (¬ inRange f.src → s.sorted f = told .field 4)) ∧
      (aboveN →
        (s.treatmentOf .toSupervisor f = .screen → refused .field 4) ∧
        (s.treatmentOf .toSupervisor f = .bar →
          arrive .field = .next ((told .field 1).post .refused false subject 4 f.cls f.dest f.src).close) ∧
        (s.treatmentOf .toSupervisor f = .pass →
          arrive .field = .next (((s.received .field).offerForward .supervisor f).post .refused false subject 4
            f.cls f.dest f.src).close))) ∧
    (s.notes f = false → arrive .field = .next (s.sorted f).close) ∧
    ((s.policy.commit ≠ .pending ∨ s.policy.deferred = false) →
      ∃ u : State, arrive .field = .next u.close ∧ u.path.supForward = (s.sorted f).path.supForward ∧
        u.path.part = (s.sorted f).path.part ∧ u.path.supTx = s.path.supTx)

/-- A SPEED ORDER for a drive earns credit, is judged against the ceilings, makes the drive FOLLOWING with its staleness timer
started, and leaves its record as R121 to R126 give it; a drive that was SUBSTITUTING or HELD raises STALE RESUMED, and a
verdict that differs from the request raises CLAMPED. In SCREEN mode it is forwarded as the verdict says, amended where that
differs; in MONITOR mode it is forwarded unchanged, both notices carry the MONITOR flag, and the drive's speed is the one
requested. Where the forward queue is full the frame is lost with LINK CONGESTION and the record stands (R9, R10, R20, R121 to
R127, R129, R133, R134). The model's are: that the CLAMPED record's subject takes its 8 whenever both ceilings are 0, even
where HOLD was asked for (log entry 21), and that in MONITOR mode the record carries the computed output (log entry 44). -/
def Obligations.SpeedOrderIsScreened : Prop :=
  ∀ (f : Frame) (hi lo brake : Byte) (d : DriveIx) (s : State), s.phase = .running → f.Good →
    f.kind = .speedOrder → f.payload = [hi, lo, brake] → f.dest ≠ s.envelope.own → f.dest ≠ 255 →
    s.treatmentOf .toField f = .screen → s.orderSupervisor f.src = true → s.active.roleOf f.dest = some (.drive d) →
    let a := s.active.gov.accel
    let e := match (s.drive d).screened with
      | none => 1000
      | some t => min (s.clock.now - t) 1000
    let credit := min ((s.drive d).credit + a * e) (a * 1000)
    let r := signed2 hi lo
    let out := speedOutput (speedTarget r s.governor.ceilingF s.governor.ceilingV) (s.drive d).speed credit
    let forced := s.governor.ceilingF = 0 ∧ s.governor.ceilingV = 0
    let held := if forced then 0 else brake
    let monitor := decide (s.mode = .monitor)
    let record : Drive :=
      { state := .following, speed := if s.mode = .monitor then r else out.1, credit := out.2
        screened := some s.clock.now, stale := some s.active.gov.staleMs, subs := (s.drive d).subs }
    let frame := if s.mode = .monitor ∨ (out.1 = r ∧ held = brake) then f
      else Frame.build f.dest f.src f.cls (f.flags ||| 1) f.seq (sbe2 out.1 ++ [held])
    let u1 := (s.received .supervisor).withDrive d record
    let u2 := if (s.drive d).state = .substituting ∨ (s.drive d).state = .held then
        u1.post .stale monitor (byte d.val) 2 (sHi (s.drive d).speed) (sLo (s.drive d).speed) (byte (s.drive d).subs)
      else u1
    let u3 := if out.1 = r ∧ held = brake then u2
      else u2.post .clamped monitor (byte (d.val + if forced then 8 else 0)) (sHi r) (sLo r) (sHi out.1) (sLo out.1)
    ∃ u : State, exec (.frameArrival .supervisor f.bytes false) s = .next u.close ∧
      u.drive d = record ∧ (∀ x : DriveIx, x ≠ d → u.drive x = s.drive x) ∧
      u.governor = { s.governor with drives := u.governor.drives } ∧
      s.OnlyChanges u [.path, .governor, .notices] ∧
      (s.path.fldForward.length < 16 →
        u = u3.withPath { u3.path with fldForward := s.path.fldForward ++ [frame] }) ∧
      (16 ≤ s.path.fldForward.length →
        u = u3.post .link false 1 2 f.cls f.dest f.src ∧ u.path.fldForward = s.path.fldForward)

/-- A DOOR ORDER RELEASE is judged by the checks of R74 in their order. One that passes them all records a grant in the berth's
slot and is forwarded, in either mode, and the grant stands where a full forward queue loses the order. The first check that fails
gives the reason with which it is dropped, or in MONITOR mode forwarded with the notice flagged, and no grant is recorded. A LOCK
is forwarded and leaves the grants (R73 to R78). -/
def Obligations.ReleaseRecordsAGrant : Prop :=
  ∀ (f : Frame) (cabin action kind : Byte) (s : State), s.phase = .running → f.Good → f.kind = .doorOrder →
    f.payload = [cabin, action, kind] → f.dest ≠ s.envelope.own → f.dest ≠ 255 →
    s.treatmentOf .toField f = .screen → s.orderSupervisor f.src = true →
    let c := cabin.toNat
    let k := if kind = 0 then GrantKind.standard else GrantKind.assist
    let r := s.received .supervisor
    let refused (reason : Byte) := exec (.frameArrival .supervisor f.bytes false) s =
      .next (if s.mode = .monitor then (r.post .refused true cabin reason f.cls f.dest f.src).offerForward .field f
             else r.post .refused false cabin reason f.cls f.dest f.src).close
    (action = 1 → exec (.frameArrival .supervisor f.bytes false) s = .next (r.offerForward .field f).close) ∧
    (action = 0 → s.governor.latch = true → refused 16) ∧
    (action = 0 → s.governor.latch = false → s.rim.known = false → refused 17) ∧
    (action = 0 → s.governor.latch = false → s.rim.known = true →
      ((s.present c = false ∨ (s.cabin c).inService = false) → refused 18) ∧
      (s.present c = true → (s.cabin c).inService = true →
        (s.reported c = none → refused 19) ∧
        (∀ (b : Berth) (z : BerthEntry), s.reported c = some b → s.active.berth b = some z →
          let short := kind = 0 → arcAt z s.envelope.count s.lastFix.position c < z.length - z.margin
          let free := s.board.grants.get b = none ∧ s.holdsGrant c = false
          let calm := if kind = 0 then s.wind.level ≠ .park else s.wind.level.code ≤ 1
          let welcome := s.boardingClosed = false ∨ s.listed c = true
          let v := s.lastFix.speed
          let slow := v.natAbs ≤ if kind = 0 then z.creep else s.active.gov.tolerance
          (¬ short → refused 20) ∧
          (short → ¬ free → refused 21) ∧
          (short → free → ¬ calm → refused 22) ∧
          (short → free → calm → ¬ welcome → refused 23) ∧
          (short → free → calm → welcome → v < 0 → refused 24) ∧
          (short → free → calm → welcome → 0 ≤ v → ¬ slow → refused (if kind = 0 then 25 else 26)) ∧
          (short → free → calm → welcome → 0 ≤ v → slow →
            ∃ u : State, exec (.frameArrival .supervisor f.bytes false) s = .next u.close ∧
              u.board.grants = s.board.grants.set b (some { cabin := c, kind := k, state := .granted, since := s.stamp }) ∧
              u.board.gates = s.board.gates ∧ u.ConditionsAgree ∧
              u.governor.ceilingF = u.forwardNow ∧ u.governor.ceilingV = u.reverseNow ∧
              s.OnlyChanges u [.path, .board, .governor, .notices] ∧
              (s.path.fldForward.length < 16 → u.path.fldForward = s.path.fldForward ++ [f]) ∧
              (16 ≤ s.path.fldForward.length → u.path.fldForward = s.path.fldForward)))))

/-- A GATE ORDER to a berth's station: an entry opening is judged by the four checks of R89 in their order, an exit opening
needs a grant, and a close is always forwarded; a refusal drops the order, or in MONITOR mode forwards it with the notice
flagged (R89, R90). -/
def Obligations.GateOrderIsScreened : Prop :=
  ∀ (f : Frame) (gate action : Byte) (b : Berth) (s : State), s.phase = .running → f.Good → f.kind = .gateOrder →
    f.payload = [gate, action] → f.dest ≠ s.envelope.own → f.dest ≠ 255 →
    s.treatmentOf .toField f = .screen → s.orderSupervisor f.src = true → s.active.roleOf f.dest = some (.station b) →
    let r := s.received .supervisor
    let passes := exec (.frameArrival .supervisor f.bytes false) s = .next (r.offerForward .field f).close
    let refused (reason : Byte) := exec (.frameArrival .supervisor f.bytes false) s =
      .next (if s.mode = .monitor then (r.post .refused true f.dest reason f.cls f.dest f.src).offerForward .field f
             else r.post .refused false f.dest reason f.cls f.dest f.src).close
    (action = 1 → passes) ∧
    (action = 0 → gate = 1 → s.board.grants.get b ≠ none → passes) ∧
    (action = 0 → gate = 1 → s.board.grants.get b = none → refused 28) ∧
    (action = 0 → gate = 0 → s.boardingClosed = true → refused 27) ∧
    (action = 0 → gate = 0 → s.boardingClosed = false → s.governor.latch = true → refused 16) ∧
    (action = 0 → gate = 0 → s.boardingClosed = false → s.governor.latch = false →
      (¬ ∃ g, s.board.grants.get b = some g ∧ g.state = .granted) → refused 28) ∧
    (∀ g, action = 0 → gate = 0 → s.boardingClosed = false → s.governor.latch = false →
      s.board.grants.get b = some g → g.state = .granted →
      (s.loadLimit ≤ (s.cabin g.cabin).occupancy → refused 29) ∧ ((s.cabin g.cabin).occupancy < s.loadLimit → passes))

/-- A DOOR REPORT from the hub sets the door of its cabin, with a CABIN notice where the state is new, and the conditions and
ceilings follow; one that is not LOCKED, or finds no grant, leaves every grant (R55, R67, R79, R87). A LOCKED one ends the grant of
its cabin, whatever the grant's kind and state: the slot is freed, the register takes the completed cycle, and the scheduler takes
an empty COUNTED cabin off its list (R55, R61, R79, R80, R146). Where that frees the last grant while a commit is PENDING the
commit bank is swapped in within the report (R165, R166), and what the treatment made of the frame stands unless a deferred restart
comes with it (R186); otherwise the bank stays as it is. -/
def Obligations.LockedReportEndsTheGrant : Prop :=
  ∀ (f : Frame) (cabin door : Byte) (s : State), s.phase = .running → f.Good → f.kind = .doorReport →
    f.payload = [cabin, door] → s.active.roleOf f.src = some .hub → s.present cabin.toNat = true → s.envelope.count ≤ 64 →
    let c := cabin.toNat
    let x := s.cabin c
    let state : DoorState := if door = 0 then .locked else if door = 1 then .unlocked else if door = 2 then .opened else .fault
    let v := s.sorted f
    let set := v.withCabin c { x with door := state }
    let told := if state = x.door then set else set.post .cabin false cabin 0 (byte state.code) (byte x.occupancy)
      (byte ((if x.uncertain then 1 else 0) + (if x.inService then 0 else 2) + (if x.assist then 4 else 0) +
        if s.holdsGrant c then 8 else 0))
    s.OnlyChanges v [.path, .notices] ∧
    ((door ≠ 0 ∨ s.grantOf c = none) →
        exec (.frameArrival .field f.bytes false) s = .next told.recomputeBoarding.close ∧
        (told.cabin c).door = state ∧ told.recomputeBoarding.board.grants = s.board.grants ∧
        told.recomputeBoarding.board.gates = s.board.gates ∧ told.recomputeBoarding.ConditionsAgree) ∧
    (∀ (b : Berth) (g : Grant), door = 0 → s.grantOf c = some (b, g) →
      ∃ u t : State, exec (.frameArrival .field f.bytes false) s = .next t ∧ t = u.close ∧
        t.board.grants = s.board.grants.set b none ∧ t.ConditionsAgree ∧
        t.governor.ceilingF = t.forwardNow ∧ t.governor.ceilingV = t.reverseNow ∧
        (t.cabin c).door = .locked ∧ (t.cabin c).occupancy = x.occupancy ∧
        (t.cabin c).assist = (x.assist || (decide (g.kind = .assist) && decide (0 < x.occupancy))) ∧
        ((s.policy.commit ≠ .pending ∨ ∃ b', b' ≠ b ∧ s.board.grants.get b' ≠ none) →
          u = told.endGrant b g ∧ t.board.gates = s.board.gates ∧ (∀ y, y ≠ c → t.cabin y = s.cabin y) ∧
          (s.sweep.state = .idle → t.sweep.list = s.sweep.list) ∧
          (s.sweep.state ≠ .idle → s.listed c = true → x.occupancy = 0 → x.uncertain = false →
            t.sweep.list = s.sweep.list.filter (· ≠ c) ∧ (t.cabin c).mark = none) ∧
          s.OnlyChanges t [.path, .notices, .cabins, .board, .governor, .sweep]) ∧
        (∀ k, s.policy.commit = .pending → s.policy.commitBank = some k → (∀ b', b' ≠ b → s.board.grants.get b' = none) →
          t.policy = { s.policy with
            active := k.toBankNo, staging := k.other, commit := .idle, commitBank := none, timer := none, deferred := false } ∧
          (∀ e : ChannelIx, (t.wind.channels[e]).node = (s.loadBank k).nodeOf (.anemometer e)) ∧
          (s.policy.deferred = false → t.rim.known = s.rim.known ∧ t.rim.fix = s.rim.fix ∧
            u.path.supForward = v.path.supForward ∧ u.path.part = v.path.part) ∧
          (s.policy.deferred = true → t.rim = RimTracker.reset ∧ u.path.supForward = [] ∧ u.path.part = []) ∧
          s.OnlyChanges t [.policy, .rim, .board, .wind, .governor, .sweep, .cabins, .path, .notices]))

/-- A GOOD RIM REPORT from the encoder makes the position KNOWN, takes the fix, restarts the watch timer, and places every cabin
1 to N by its arc (R37, R41, R42); where its zone exits end every grant held while a commit is PENDING, the commit bank is swapped
in within the report, and otherwise the bank stays as it is (R82, R165, R166). A FAULT one stops the watch timer, makes the
position UNKNOWN and keeps the fix, the last-known memberships and the marks, and the ceilings follow (R37 to R39, R120). -/
def Obligations.GoodRimReportPlacesCabins : Prop :=
  ∀ (f : Frame) (p2 p1 p0 v1 v0 status : Byte) (s : State), s.phase = .running → f.Good → f.kind = .rimReport →
    f.payload = [p2, p1, p0, v1, v0, status] → s.active.roleOf f.src = some .encoder →
    let n := s.envelope.count
    let p := beNat [p2, p1, p0]
    (status = 1 →
      ∃ u t : State, exec (.frameArrival .field f.bytes false) s = .next t ∧ t = u.close ∧
        (s.sorted f).OnlyChanges u [.rim, .governor] ∧ t.rim = { s.rim with known := false, watch := none } ∧ (∀ c, t.reported c = none) ∧
        t.governor = { s.governor with
          ceilingF := t.forwardNow, ceilingV := t.reverseNow, rimHold := t.governor.rimHold } ∧
        (t.governor.rimHold = true ↔ s.mode = .screen ∧ t.forwardNow = 0 ∧ t.reverseNow = 0) ∧
        s.OnlyChanges t [.rim, .governor, .path, .notices]) ∧
    (status = 0 →
      (s.policy.commit ≠ .pending ∨ s.noGrants = true ∨
        ∃ b g, s.board.grants.get b = some g ∧
          ((s.cabin g.cabin).door ≠ .locked ∨ ∀ side, ZoneEvent.exit g.cabin b side ∉ s.zoneEvents p (signed2 v1 v0))) →
      ∃ t : State, exec (.frameArrival .field f.bytes false) s = .next t ∧
        t.rim.known = true ∧ t.rim.fix = some { position := p, speed := signed2 v1 v0 } ∧
        t.rim.watch = some s.active.gov.encoderMs ∧
        (∀ i : Fin 64, n ≤ i.val → t.rim.lastKnown[i] = s.rim.lastKnown[i] ∧ t.rim.marks[i] = s.rim.marks[i]) ∧
        (∀ i : Fin 64, i.val < n →
          (∀ b, t.rim.lastKnown[i] = some b → ∃ z, s.active.berth b = some z ∧ arcAt z n p (i.val + 1) ≤ z.length) ∧
          (t.rim.lastKnown[i] = none → ∀ b z, s.active.berth b = some z → z.length < arcAt z n p (i.val + 1))) ∧
        t.governor.ceilingF = t.forwardNow ∧ t.governor.ceilingV = t.reverseNow ∧
        s.OnlyChanges t [.path, .notices, .rim, .governor, .cabins, .board, .sweep]) ∧
    (∀ k, status = 0 → s.policy.commit = .pending → s.policy.commitBank = some k → s.noGrants = false →
      (∀ b g, s.board.grants.get b = some g → (s.cabin g.cabin).door = .locked ∧
        ∃ side, ZoneEvent.exit g.cabin b side ∈ s.zoneEvents p (signed2 v1 v0)) →
      ∃ u t : State, exec (.frameArrival .field f.bytes false) s = .next t ∧ t = u.close ∧
        t.board.grants = { a := none, b := none } ∧
        t.policy = { s.policy with
          active := k.toBankNo, staging := k.other, commit := .idle, commitBank := none, timer := none, deferred := false } ∧
        (s.policy.deferred = false →
          u.path.supForward = (s.sorted f).path.supForward ∧ u.path.part = (s.sorted f).path.part ∧
          t.rim.known = true ∧ t.rim.fix = some { position := p, speed := signed2 v1 v0 } ∧
          ∀ i : Fin 64, i.val < n → ∀ b, t.rim.lastKnown[i] = some b →
            ∃ z, (s.loadBank k).berth b = some z ∧ arcAt z n p (i.val + 1) ≤ z.length) ∧
        (s.policy.deferred = true → t.rim = RimTracker.reset ∧ u.path.supForward = [] ∧ u.path.part = []) ∧ t.ConditionsAgree ∧
        t.governor.ceilingF = t.forwardNow ∧ t.governor.ceilingV = t.reverseNow ∧
        s.OnlyChanges t [.policy, .rim, .board, .wind, .governor, .sweep, .cabins, .path, .notices])

/-- The zone events of a GOOD RIM REPORT: for each cabin 1 to N an entry to the berth it has come into, an exit from the berth it has
left, on the side its new arc gives, and a withdraw point once a visit, at or past L - M and not in reverse; cabins ascending, and
for each exit, entry, withdraw point. The report takes the fix, then the events one by one, then the new memberships and marks,
behind what the Sorter has made of the frame; a PENDING commit waits where a grant is left (R25, R43 to R48, R165). -/
def Obligations.ZoneEventsAreRaised : Prop :=
  ∀ s : State,
    (∀ (p : Nat) (v : Int) (i : Fin 64), i.val < s.envelope.count →
      let c := i.val + 1
      let n := s.envelope.count
      let old := s.rim.lastKnown[i]
      let new := (s.moveSlot p v i).member
      let kept := s.rim.marks[i] = true ∧ new = old
      let events := s.zoneEvents p v
      (∀ b, new = some b → ∃ z, s.active.berth b = some z ∧ arcAt z n p c ≤ z.length) ∧
      (new = none → ∀ b z, s.active.berth b = some z → z.length < arcAt z n p c) ∧
      (∀ b, ZoneEvent.entry c b ∈ events ↔ new = some b ∧ old ≠ some b) ∧
      (∀ b, (∃ side, ZoneEvent.exit c b side ∈ events) ↔ old = some b ∧ new ≠ some b) ∧
      (∀ b z, s.active.berth b = some z →
        (ZoneEvent.exit c b .far ∈ events → arcAt z n p c < 524288) ∧
        (ZoneEvent.exit c b .near ∈ events → 524288 ≤ arcAt z n p c)) ∧
      (∀ b, ZoneEvent.withdraw c b ∈ events ↔
        new = some b ∧ (∃ z, s.active.berth b = some z ∧ z.length - z.margin ≤ arcAt z n p c) ∧ 0 ≤ v ∧ ¬ kept) ∧
      ((s.moveSlot p v i).mark = true ↔ kept ∨ ∃ b, ZoneEvent.withdraw c b ∈ events)) ∧
    (∀ (p : Nat) (v : Int), (s.zoneEvents p v).Pairwise fun x y =>
      let rank : ZoneEvent → Nat
        | .exit c _ _ => 3 * c
        | .entry c _ => 3 * c + 1
        | .withdraw c _ => 3 * c + 2
      rank x < rank y) ∧
    (∀ (f : Frame) (p2 p1 p0 v1 v0 : Byte), s.phase = .running → f.Good → f.kind = .rimReport →
      f.payload = [p2, p1, p0, v1, v0, 0] → s.active.roleOf f.src = some .encoder →
      let p := beNat [p2, p1, p0]
      let v := signed2 v1 v0
      let w := s.sorted f
      s.OnlyChanges w [.path, .notices] ∧
        let start := (w.withRim { w.rim with
          known := true, fix := some { position := p, speed := v }
          watch := some s.active.gov.encoderMs }).recomputeCeilings
        let done := (s.zoneEvents p v).foldl State.takeZoneEvent start
        (s.policy.commit ≠ .pending ∨ s.noGrants = true ∨ done.noGrants = false) →
        exec (.frameArrival .field f.bytes false) s =
          .next (done.withRim { done.rim with
            lastKnown := Vector.ofFn fun i => (s.moveSlot p v i).member
            marks := Vector.ofFn fun i => (s.moveSlot p v i).mark }).close)

/-- What a zone event brings. An entry clears the served flag. A withdraw point withdraws a GRANTED STANDARD grant of the cabin at
the berth, and in SCREEN mode originates the door lock, and the gate close unless the entry gate is CLOSED; it changes nothing
else and no other grant. An exit stamps the last exit, ends the cabin's grant at the berth if its door is LOCKED and makes it
LATE if not, and a listed cabin's visit is judged: one now empty and COUNTED leaves the list, one with its served flag set
goes to the tail, and any other makes a pass, which goes to the tail with the count raised and the mark PASSED, or STUCK with
a STUCK notice at the pass limit (R43, R54, R80 to R82, R145 to R149). That a grant gone LATE at the exit makes no pass of a
cabin served before, or of one empty and COUNTED, which leaves the list at once, is the model's (log entry 46). That a sweep
that is not IDLE has a cause is part of SweepLawIsKept. -/
def Obligations.ZoneEventsAreTaken : Prop :=
  ∀ (s : State) (c : Nat) (b : Berth), s.present c = true → s.envelope.count ≤ 64 →
    let x := s.cabin c
    let here := ∃ g, s.board.grants.get b = some g ∧ g.cabin = c
    let aboard := 0 < x.occupancy ∨ x.uncertain = true
    (let t := s.takeZoneEvent (.entry c b)
     t.served c = false ∧ (∀ y, y ≠ c → t.served y = s.served y) ∧
       t.sweep = { s.sweep with served := t.sweep.served } ∧ s.OnlyChanges t [.sweep]) ∧
    (let t := s.takeZoneEvent (.withdraw c b)
     (∀ g, s.board.grants.get b = some g → g.cabin = c → g.kind = .standard → g.state = .granted →
       t.board.grants = s.board.grants.set b (some { g with state := .withdrawing }) ∧ t.board.gates = s.board.gates ∧
       t.ConditionsAgree ∧ t.governor.ceilingF = t.forwardNow ∧ t.governor.ceilingV = t.reverseNow ∧
       (s.mode = .monitor → t.path = s.path) ∧
       (∀ n, s.mode = .screen → s.active.nodeOf .hub = some n →
         ∃ seq, { key := .doorLock b
                  frame := Frame.build n s.envelope.own codeDoorOrder flagOrigin seq [byte c, 1, 0] } ∈ t.path.origin) ∧
       (∀ n, s.mode = .screen → s.active.nodeOf (.station b) = some n → (s.board.gates.get b).entry ≠ .closed →
         ∃ seq, { key := .gateClose b
                  frame := Frame.build n s.envelope.own codeGateOrder flagOrigin seq [0, 1] } ∈ t.path.origin) ∧
       ((s.board.gates.get b).entry = .closed → ∀ o ∈ t.path.origin, o.key = .gateClose b → o ∈ s.path.origin) ∧
       s.OnlyChanges t [.board, .governor, .path]) ∧
     ((¬ ∃ g, s.board.grants.get b = some g ∧ g.cabin = c ∧ g.kind = .standard ∧ g.state = .granted) → t = s)) ∧
    (∀ side : Side,
      let t := s.takeZoneEvent (.exit c b side)
      let tail := s.sweep.list.filter (· ≠ c) ++ [c]
      (t.cabin c).lastExit = some s.stamp ∧ (t.cabin c).occupancy = x.occupancy ∧ (t.cabin c).door = x.door ∧
      (∀ y, y ≠ c → t.cabin y = s.cabin y) ∧ t.board.gates = s.board.gates ∧
      s.OnlyChanges t [.cabins, .board, .governor, .sweep, .notices] ∧
      (¬ here → t.board = s.board) ∧
      (∀ g, s.board.grants.get b = some g → g.cabin = c →
        t.ConditionsAgree ∧ t.governor.ceilingF = t.forwardNow ∧ t.governor.ceilingV = t.reverseNow ∧
        (x.door = .locked → t.board.grants = s.board.grants.set b none) ∧
        (x.door ≠ .locked → t.board.grants = s.board.grants.set b (some { g with state := .late }))) ∧
      (here → x.door = .locked →
        (s.sweep.state = .idle → t.sweep.list = s.sweep.list ∧ t.served c = true) ∧
        (s.sweep.state ≠ .idle → s.listed c = true → ¬ aboard →
          t.sweep.list = s.sweep.list.filter (· ≠ c) ∧ (t.cabin c).mark = none) ∧
        (s.sweep.state ≠ .idle → s.sweep.caused = true → s.listed c = true → aboard →
          t.sweep.list = tail ∧ (t.cabin c).mark = x.mark ∧ (t.cabin c).passes = x.passes)) ∧
      ((¬ here ∨ x.door ≠ .locked) →
        ((s.sweep.state = .idle ∨ s.listed c = false) → t.sweep = s.sweep ∧ (t.cabin c).mark = x.mark) ∧
        (s.sweep.state ≠ .idle → s.listed c = true →
          (¬ aboard → t.sweep.list = s.sweep.list.filter (· ≠ c) ∧ (t.cabin c).mark = none) ∧
          (aboard → s.served c = true →
            t.sweep.list = tail ∧ (t.cabin c).mark = x.mark ∧ (t.cabin c).passes = x.passes) ∧
          (aboard → s.served c = false →
            let count := min (x.passes + 1) 8
            t.sweep.list = tail ∧ (t.cabin c).passes = count ∧
            ((t.cabin c).mark = some .stuck ↔ x.mark = some .stuck ∨ s.active.passes ≤ count) ∧
            ((t.cabin c).mark = some .passed ↔ x.mark ≠ some .stuck ∧ count < s.active.passes) ∧
            (¬ here → s.sweep.state = .active → s.sweep.caused = true → s.wind.level ≠ .park → x.mark ≠ some .stuck →
              s.active.passes ≤ count →
              t = ((s.withCabin c { x with lastExit := some s.stamp, passes := count, mark := some .stuck }).withSweep
                { s.sweep with list := tail }).post .stuck false (byte c) (byte count) (byte x.occupancy)
                  (if x.uncertain then 1 else 0) (byte (b.code + 1)))))))

/-- What a station's reports do. A COUNT REPORT changes the named cabin's occupancy by the clamped counts, saturating at 0 and 63 with
the confidence then UNCERTAIN, and changes no other record (R57, R61). One for the cabin of the berth's grant that leaves it at or
above the load limit originates the entry gate's close in SCREEN mode (R58, R62); one for another cabin raises COUNT_UNGRANTED and
originates none (R58). A GATE REPORT sets both gates of the berth's picture and nothing else (R72).
Both follow what the Sorter has made of the frame (R25), and a COUNT REPORT raises CABIN where occupancy or confidence is new (R67). -/
def Obligations.CountReportIsApplied : Prop :=
  ∀ (f : Frame) (b : Berth) (s : State), s.phase = .running → f.Good → s.active.roleOf f.src = some (.station b) →
    (∀ (cabin boarded alighted : Byte), f.kind = .countReport → f.payload = [cabin, boarded, alighted] →
      s.present cabin.toNat = true → s.envelope.count ≤ 64 →
      let c := cabin.toNat
      let total : Int := (s.cabin c).occupancy + min boarded.toNat 63 - min alighted.toNat 63
      let granted := ∃ g, s.board.grants.get b = some g ∧ g.cabin = c
      let limit := min s.envelope.seats (s.active.load s.wind.level)
      ∃ u : State, exec (.frameArrival .field f.bytes false) s = .next u.close ∧
        (total < 0 → (u.cabin c).occupancy = 0 ∧ (u.cabin c).uncertain = true) ∧
        (63 < total → (u.cabin c).occupancy = 63 ∧ (u.cabin c).uncertain = true) ∧
        (0 ≤ total → total ≤ 63 → (u.cabin c).occupancy = total ∧ (u.cabin c).uncertain = (s.cabin c).uncertain) ∧
        u.cabin c = { s.cabin c with
          occupancy := (u.cabin c).occupancy, uncertain := (u.cabin c).uncertain
          assist := if (u.cabin c).occupancy = 0 then false else (s.cabin c).assist } ∧
        (∀ x, x ≠ c → u.cabin x = s.cabin x) ∧ s.OnlyChanges u [.path, .notices, .cabins] ∧
        (granted → limit ≤ (u.cabin c).occupancy → s.mode = .screen → ∀ n, s.active.nodeOf (.station b) = some n →
          ∃ seq, { key := .gateClose b
                   frame := Frame.build n s.envelope.own codeGateOrder flagOrigin seq [0, 1] } ∈ u.path.origin) ∧
        ((¬ granted ∨ (u.cabin c).occupancy < limit ∨ s.mode = .monitor) → u.path.origin = s.path.origin) ∧
        let k := u.cabin c
        let set := (s.sorted f).withCabin c k
        let told := if k.occupancy = (s.cabin c).occupancy ∧ k.uncertain = (s.cabin c).uncertain then set
          else set.post .cabin false cabin 1 (byte k.door.code) (byte k.occupancy)
            (byte ((if k.uncertain then 1 else 0) + (if k.inService then 0 else 2) + (if k.assist then 4 else 0) +
              if s.holdsGrant c then 8 else 0))
        (¬ granted → u = told.post .refused false cabin 30 f.cls f.dest f.src) ∧
        (granted → (k.occupancy < limit ∨ s.mode = .monitor) → u = told) ∧
        (granted → limit ≤ k.occupancy → s.mode = .screen →
          u = told.withPath { told.path with origin := u.path.origin, fieldSeq := u.path.fieldSeq })) ∧
    (∀ (entry exit : Byte), f.kind = .gateReport → f.payload = [entry, exit] →
      let picture : GatePicture :=
        { entry := if entry = 0 then .opened else .closed, exit := if exit = 0 then .opened else .closed }
      let t := (s.sorted f).withBoard { s.board with gates := s.board.gates.set b picture }
      exec (.frameArrival .field f.bytes false) s = .next t.close ∧
        t.close.board = { s.board with gates := s.board.gates.set b picture } ∧
        s.OnlyChanges t.close [.path, .notices, .board])

/-- A GOOD WIND REPORT from an assigned channel's anemometer enters its bucket, clamped to 700, and wakes a STALE channel; a FAULT
one changes no channel (R95). Both follow what the Sorter has made of the frame (R25), and the wake raises CHANNEL (R100). -/
def Obligations.WindSampleEntersTheBucket : Prop :=
  ∀ (f : Frame) (w1 w0 d1 d0 status : Byte) (c : ChannelIx) (s : State), s.phase = .running → f.Good →
    f.kind = .windReport → f.payload = [w1, w0, d1, d0, status] → s.active.roleOf f.src = some (.anemometer c) →
    (s.wind.channels[c]).state ≠ .unassigned →
    let x := s.wind.channels[c]
    let v := min (beNat [w1, w0]) 700
    ∃ u t : State, exec (.frameArrival .field f.bytes false) s = .next t ∧ t = u.close ∧
      s.OnlyChanges t [.path, .notices, .wind] ∧ (s.sorted f).OnlyChanges u [.wind, .notices] ∧
      (status ≠ 0 → u = s.sorted f) ∧ (status = 0 → x.state ≠ .stale → u.notices = (s.sorted f).notices) ∧
      (status = 0 → x.state = .stale → u.notices = ((s.sorted f).post .channel false (byte c.val) 3 1 (x.node.getD 255)
        (byte s.liveChannels.length)).notices) ∧
      t.wind.level = s.wind.level ∧ t.wind.countdown = s.wind.countdown ∧ t.wind.floor = s.wind.floor ∧
      (∀ e : ChannelIx, e ≠ c → t.wind.channels[e] = s.wind.channels[e]) ∧
      (status ≠ 0 → t.wind = s.wind) ∧
      (status = 0 →
        t.wind.channels[c] = { x with
          state := if x.state = .stale then .warming else x.state
          stale := if x.state = .stale then 0 else x.stale
          warm := if x.state = .stale then 0 else x.warm
          direction := beNat [d1, d0]
          bucketMax := max x.bucketMax v
          bucketSum := if x.bucketCount < 255 then x.bucketSum + v else x.bucketSum
          bucketCount := if x.bucketCount < 255 then x.bucketCount + 1 else x.bucketCount })

/-! ## The line -/

/-- An idle transmitter that is started, and one that has completed a frame, which is then gone, take the next by the arbiters'
tables: the field port the head of the origin queue before that of the forward queue (R15), the supervisor port by the table of R16,
whose forward run count follows each choice. A busy transmitter that is started goes on, and one whose queues are empty, with no
record waiting, is idle after its completion (R17). -/
def Obligations.TransmittersChoose : Prop :=
  ∀ s : State, s.phase = .running →
    let field (t : State) := s.OnlyChanges t [.path, .notices] ∧
      (∀ o os, s.path.origin = o :: os →
        t.path.fldTx = some o.frame ∧ t.path.origin = os ∧ t.path.fldForward = s.path.fldForward) ∧
      (∀ f fs, s.path.origin = [] → s.path.fldForward = f :: fs →
        t.path.fldTx = some f ∧ t.path.origin = [] ∧ t.path.fldForward = fs) ∧
      (s.path.origin = [] → s.path.fldForward = [] → t.path.fldTx = none)
    let supervisor (t : State) := s.OnlyChanges t [.path, .notices] ∧
      (∀ f fs, s.path.supForward = f :: fs → s.path.part = [] →
        t.path.supTx = some f ∧ t.path.supForward = fs ∧ t.path.runCount = 0) ∧
      (∀ p ps, s.path.supForward = [] → s.path.part = p :: ps →
        t.path.supTx = some p ∧ t.path.supForward = [] ∧ ps <+: t.path.part ∧ t.path.runCount = 0) ∧
      (∀ f fs p ps, s.path.supForward = f :: fs → s.path.part = p :: ps → s.path.runCount < 4 →
        t.path.supTx = some f ∧ t.path.supForward = fs ∧ p :: ps <+: t.path.part ∧
          t.path.runCount = s.path.runCount + 1) ∧
      (∀ f fs p ps, s.path.supForward = f :: fs → s.path.part = p :: ps → 4 ≤ s.path.runCount →
        t.path.supTx = some p ∧ t.path.supForward = f :: fs ∧ ps <+: t.path.part ∧ t.path.runCount = 0)
    (s.path.fldTx = none → ∃ t, exec (.transmitStart .field) s = .next t ∧ field t) ∧
    (s.path.supTx = none → ∃ t, exec (.transmitStart .supervisor) s = .next t ∧ supervisor t) ∧
    (s.path.fldTx ≠ none → exec (.transmitStart .field) s = .next s.close) ∧
    (s.path.supTx ≠ none → exec (.transmitStart .supervisor) s = .next s.close) ∧
    (∃ t, exec (.transmitCompletion .field) s = .next t ∧ field t) ∧
    (∃ t, exec (.transmitCompletion .supervisor) s = .next t ∧ supervisor t ∧
      (s.path.supForward = [] → s.path.part = [] → s.notices.queue = [] → s.notices.atClose = [] →
        t.path.supTx = none ∧ t.path.runCount = s.path.runCount))

/-- NOTICE frames are built while the notice queue holds a record and the part queue fewer than 6 frames; the first takes up to
four records from the head (R8, R14, R22). -/
def Obligations.NoticeFramesAreBuilt : Prop :=
  ∀ s : State, s.phase = .running → ∃ (u : State) (frames : List Frame),
    exec .noticeFrameBuild s = .next u.close ∧ s.OnlyChanges u [.path, .notices] ∧
    u.path.part = s.path.part ++ frames ∧
    (u.notices.queue = [] ∨ 6 ≤ u.path.part.length) ∧ (6 ≤ s.path.part.length → frames = []) ∧
    u.path.part.length ≤ max 6 s.path.part.length ∧ (∀ f ∈ frames, f.cls = codeNotice ∧ f.flags = 0) ∧
    (s.notices.queue ≠ [] → s.path.part.length < 6 →
      frames.head? = some (Frame.build s.noticeDest s.envelope.own codeNotice 0 s.path.supSeq
        ((s.notices.queue.take 4).flatMap fun q => q.note.bytes)))

/-! ## Notices -/

/-- The notice queue and its freeze: the table of R184, the OVERFLOW record that follows the last-good one, and the states that
follow (R184, R185); Resume Notices unfreezes a REPORTED queue and is refused STATE in any other (R185). -/
def Obligations.NoticeQueueFreezes : Prop :=
  (∀ (u : NoticeUnit) (n : Notice),
    (u.freeze = .flowing → u.queue.length < 32 →
      u.enter n = { u with queue := u.queue ++ [{ note := n, lastGood := false }] }) ∧
    (∀ qs q, u.freeze = .flowing → u.queue = qs ++ [q] → 32 ≤ u.queue.length →
      u.enter n = { u with queue := qs ++ [{ q with lastGood := true }], freeze := .holding, lost := 1
                           firstLost := some n.kind }) ∧
    (u.freeze ≠ .flowing → u.enter n = { u with lost := min (u.lost + 1) 65535 })) ∧
  (∀ (u : NoticeUnit) (stamp : Nat) (q : Queued) (k : NoticeKind), u.queue = [q] → u.firstLost = some k →
    (q.lastGood = true →
      u.giveUp stamp = { u with
        queue := [{ note := { kind := .overflow, monitor := false, subject := 0, stamp := stamp
                              data0 := byte (u.lost / 256), data1 := byte u.lost, data2 := byte k.code, data3 := 0
                              count := 1 }, lastGood := false }]
        freeze := .reporting }) ∧
    (q.lastGood = false → q.note.kind = .overflow → u.giveUp stamp = { u with queue := [], freeze := .reported })) ∧
  (∀ (who : Requester) (s : State), s.Takes →
    (s.notices.freeze = .reported →
      exec (.resumeNotices who) s =
        .next ((s.withNotices { s.notices with freeze := .flowing, lost := 0, firstLost := none }).replied who .done
          (be2 s.notices.lost)).close) ∧
    (s.notices.freeze ≠ .reported → exec (.resumeNotices who) s = .next (s.replied who .state []).close))

/-- The combining buffer: a notice whose key waits replaces that record and raises its count, another takes a free place, or
drains the oldest; the flush timer starts when the buffer first holds a record; a serializing notice, and the flush timer's
expiry, drain the buffer oldest first (R182, R183). -/
def Obligations.CombiningBufferFolds : Prop :=
  (∀ (u : NoticeUnit) (delay : Nat) (n : Notice), n.kind.combinable = true →
    (∀ as m bs, u.buffer = as ++ m :: bs → (∀ a ∈ as, a.sameKey n = false) → m.sameKey n = true →
      u.take delay n = { u with buffer := as ++ { n with count := min (m.count + 1) 255 } :: bs }) ∧
    (u.buffer = [] → u.take delay n = { u with buffer := [n], flush := some delay }) ∧
    (u.buffer ≠ [] → u.buffer.length < 8 → (∀ a ∈ u.buffer, a.sameKey n = false) →
      u.take delay n = { u with buffer := u.buffer ++ [n] }) ∧
    (∀ m ms, u.buffer = m :: ms → 8 ≤ u.buffer.length → (∀ a ∈ u.buffer, a.sameKey n = false) →
      u.take delay n = { u.enter m with buffer := ms ++ [n] })) ∧
  (∀ (u : NoticeUnit) (delay : Nat) (n : Notice), n.kind.combinable = false → u.freeze = .flowing →
    u.queue.length + u.buffer.length < 32 →
    u.take delay n = { u with
      buffer := [], flush := none, queue := u.queue ++ (u.buffer ++ [n]).map fun m => { note := m, lastGood := false } }) ∧
  (∀ s : State, s.phase = .running → s.notices.flush = some 0 → s.notices.freeze = .flowing →
    s.notices.queue.length + s.notices.buffer.length ≤ 32 →
    exec .flushTimerExpiry s = .next (s.withNotices { s.notices with
      buffer := [], flush := none
      queue := s.notices.queue ++ s.notices.buffer.map fun m => { note := m, lastGood := false } }).close)

/-! ## The clock, the ticks and the timers -/

/-- Set Clock sets the time of day and Set Closing Alarm the alarm's time and enable; a value outside its range is refused RANGE
and changes nothing (R179, R180). -/
def Obligations.ClockRequestsSetTheClock : Prop :=
  ∀ (who : Requester) (x y z : Byte) (s : State), s.Takes →
    (x.toNat ≤ 23 ∧ y.toNat ≤ 59 ∧ z.toNat ≤ 59 →
      let time := x.toNat * 3600 + y.toNat * 60 + z.toNat
      exec (.setClock who x y z) s =
        .next ((s.withClock { s.clock with set := true, time := time }).replied who .done (1 :: be3 time)).close) ∧
    (¬ (x.toNat ≤ 23 ∧ y.toNat ≤ 59 ∧ z.toNat ≤ 59) →
      exec (.setClock who x y z) s = .next (s.replied who .range []).close) ∧
    (x.toNat ≤ 23 ∧ y.toNat ≤ 59 ∧ z.toNat ≤ 1 →
      exec (.setClosingAlarm who x y z) s =
        .next ((s.withClock { s.clock with
          alarmHour := x.toNat, alarmMinute := y.toNat, alarmOn := decide (z = 1) }).replied who .done
            [x, y, z, if s.clock.set then 1 else 0]).close) ∧
    (¬ (x.toNat ≤ 23 ∧ y.toNat ≤ 59 ∧ z.toNat ≤ 1) →
      exec (.setClosingAlarm who x y z) s = .next (s.replied who .range []).close)

/-- A ride-second tick advances a SET clock by one second, rolling over after 86,399, and fires the closing alarm, which adds
CLOSE, when the tick brings a SET clock to the enabled alarm's minute, whichever of its takers takes it first
(R142, R179, R180). -/
def Obligations.RideSecondAdvancesTheClock : Prop :=
  ∀ (b : Bool) (s : State), s.phase = .running →
    ∃ t : State, exec (.rideSecondTick b) s = .next t ∧
      s.OnlyChanges t [.clock, .wind, .governor, .sweep, .cabins, .path, .notices] ∧
      (s.clock.set = false → t.clock = s.clock) ∧
      (s.clock.set = true → s.clock.time < 86399 → t.clock = { s.clock with time := s.clock.time + 1 }) ∧
      (s.clock.set = true → s.clock.time = 86399 → t.clock = { s.clock with time := 0 }) ∧
      t.sweep.operator = s.sweep.operator ∧
      (t.sweep.close = true ↔ s.sweep.close = true ∨
        (s.clock.set = true ∧ s.clock.alarmOn = true ∧
          t.clock.time = s.clock.alarmHour * 3600 + s.clock.alarmMinute * 60))

/-- A ride-second tick closes every channel's second by the table of R96, pushing its values into the rings, recomputes the effective
wind, and then raises the level to its target (the highest level whose raise thresholds are met, the blind level below the quorum,
and the operator floor), or counts down while the four conditions of R104 hold and lets it fall by one step, or returns the
countdown to the level's hold-down (R96 to R98, R101 to R104). -/
def Obligations.RideSecondMovesTheLevel : Prop :=
  ∀ (b : Bool) (s : State), s.phase = .running →
    ∃ t : State, exec (.rideSecondTick b) s = .next t ∧
      (∀ c : ChannelIx, (s.wind.channels[c]).RingsAgree →
        let x := s.wind.channels[c]
        let y := t.wind.channels[c]
        let closes := x.state = .warming ∨ x.state = .live
        let pushed (v : SecondValues) := y.held = some v ∧
          y.gustRing = (x.gustRing ++ [v.max]).drop (x.gustRing.length + 1 - 3) ∧
          y.sustRing = (x.sustRing ++ [v.mean]).drop (x.sustRing.length + 1 - 60) ∧
          y.sustSum = y.sustRing.sum ∧ y.filled = y.sustRing.length ∧
          y.warm = (if x.state = .warming then x.warm + 1 else x.warm) ∧
          y.state = (if x.state = .warming ∧ x.warm + 1 < 3 then .warming else .live)
        (¬ closes → y = x) ∧
        (closes → y.bucketMax = 0 ∧ y.bucketSum = 0 ∧ y.bucketCount = 0 ∧ y.node = x.node ∧ y.direction = x.direction) ∧
        (closes → 0 < x.bucketCount →
          pushed { max := x.bucketMax, mean := x.bucketSum / x.bucketCount } ∧ y.stale = 0) ∧
        (∀ v, closes → x.bucketCount = 0 → x.stale ≤ 1 → x.held = some v → pushed v ∧ y.stale = x.stale + 1) ∧
        (closes → x.bucketCount = 0 → x.stale ≤ 1 → x.held = none →
          y = { x with stale := x.stale + 1, bucketMax := 0, bucketSum := 0, bucketCount := 0 }) ∧
        (closes → x.bucketCount = 0 → 2 ≤ x.stale →
          y.state = .stale ∧ y.stale = 2 ∧ y.held = none ∧ y.gustRing = [] ∧ y.sustRing = [] ∧ y.filled = 0 ∧ y.warm = 0)) ∧
      t.wind.live = t.liveChannels.length ∧ t.wind.lead = t.leadNow ∧
      t.wind.effGust = (t.liveChannels.map fun c => (t.wind.channels[c]).gust).foldl max 0 ∧
      t.wind.effSust = (t.liveChannels.map fun c => (t.wind.channels[c]).sustained).foldl max 0 ∧
      t.wind.floor = s.wind.floor ∧
      let park := match s.envelope.gustCap with
        | none => (s.active.wind .park).raiseGust
        | some cap => min (s.active.wind .park).raiseGust cap
      let raiseGust (l : Level) := if l = .park then park else (s.active.wind l).raiseGust
      let clearGust (l : Level) := if l = .park then min (s.active.wind .park).clearGust (park - 1)
        else (s.active.wind l).clearGust
      let few := t.wind.live < s.active.floorsRecord.quorum
      let blind := s.active.floorsRecord.blind
      let asked (l : Level) :=
        (l ≠ .opened ∧ (raiseGust l ≤ t.wind.effGust ∨ (s.active.wind l).raiseSust ≤ t.wind.effSust)) ∨
          (few ∧ l = blind) ∨ l = s.wind.floor
      let l := s.wind.level
      let clear := t.wind.effGust < clearGust l ∧ t.wind.effSust < (s.active.wind l).clearSust ∧
        (¬ few ∨ blind.code < l.code) ∧ s.wind.floor.code < l.code
      ∃ target : Level, asked target ∧ (∀ m, asked m → m.code ≤ target.code) ∧
        (l.code < target.code → t.wind.level = target ∧ t.wind.countdown = s.active.holdDown target) ∧
        (target.code ≤ l.code →
          (l = .opened → t.wind.level = .opened ∧ t.wind.countdown = 0) ∧
          (l ≠ .opened → clear → s.wind.countdown ≤ 1 →
            t.wind.level = l.down ∧ t.wind.countdown = s.active.holdDown l.down) ∧
          (l ≠ .opened → clear → 1 < s.wind.countdown →
            t.wind.level = l ∧ t.wind.countdown = s.wind.countdown - 1) ∧
          (l ≠ .opened → ¬ clear → t.wind.level = l ∧ t.wind.countdown = s.active.holdDown l))

/-- The beacons. Whenever the level changes, or CLOSE enters or leaves the causes, each berth with a STATION node is brought to the
pattern due: the closing pattern while CLOSE is a cause and the level is below UNLOAD, and otherwise the level's; a BEACON ORDER is
originated where the pattern sent last differs, and a berth without a node has none. While neither changes, nothing is sent. At a
swap and a warm restart the due pattern goes to every STATION node; a Revert to Floor leaves both without (R113 to R115). -/
def Obligations.BeaconsFollowTheLevel : Prop :=
  ∀ (s : State), s.phase = .running →
    let due (t : State) : Nat :=
      if t.sweep.close = true ∧ t.wind.level.code ≤ 2 then t.active.pattern 5 else t.active.pattern t.wind.level.code
    let shown (t : State) (b : Berth) := t.wind.sent.get b = (t.active.nodeOf (.station b)).map fun _ => due t
    let ordered (t : State) (b : Berth) := ∀ n, t.active.nodeOf (.station b) = some n → ∃ seq,
      let f := Frame.build n s.envelope.own codeBeaconOrder flagOrigin seq [byte (due t)]
      { key := .beacon b, frame := f } ∈ t.path.origin ∨ t.path.fldTx = some f
    let follows (t : State) :=
      ((t.wind.level ≠ s.wind.level ∨ t.sweep.close ≠ s.sweep.close) →
        ∀ b, shown t b ∧ (s.wind.sent.get b ≠ some (due t) → ordered t b)) ∧
      (t.wind.level = s.wind.level → t.sweep.close = s.sweep.close → t.wind.sent = s.wind.sent)
    (∀ k, ∃ t, exec (.rideSecondTick k) s = .next t ∧ follows t) ∧
    (∃ t, exec .holdDownExpiry s = .next t ∧ follows t) ∧
    (∀ who, s.Takes →
      (∃ t, exec (.openBoarding who) s = .next t ∧ follows t) ∧
      (∀ level, ∃ t, exec (.setOperatorFloor who level) s = .next t ∧ follows t) ∧
      (s.policy.commit = .idle → ∃ t, exec (.warmRestart who) s = .next t ∧ ∀ b, shown t b ∧ ordered t b) ∧
      (s.policy.active ≠ .floor → ∃ t, exec (.revertToFloor who) s = .next t ∧ t.wind.sent = { a := none, b := none })) ∧
    (s.policy.commit = .pending → s.policy.commitBank ≠ none → s.noGrants = true →
      ∃ t, exec .swap s = .next t ∧ ∀ b, shown t b ∧ ordered t b)

/-- A quarter tick takes one ramp step at every SUBSTITUTING drive, originates its substitute in SCREEN mode, and leaves every
other drive's record but for the time its timer has run (R132, R178). That the command is the moment of the tick, so that the ms
still short of it pass at the time base and at every timer, is the model's (log entries 9 and 16). -/
def Obligations.QuarterTickRampsDrives : Prop :=
  ∀ s : State, s.phase = .running →
    ∃ u : State, exec .quarterTick s = .next u.close ∧
      s.OnlyChanges u [.clock, .rim, .governor, .policy, .path, .notices] ∧
      u.governor = { s.governor with drives := u.governor.drives } ∧
      u.clock = { s.clock with
        now := s.clock.now + (250 - s.clock.sinceQuarter), sinceQuarter := s.clock.sinceQuarter - 250
        quarters := (s.clock.quarters + 1) % 4 } ∧
      ∀ d : DriveIx,
        let x := { s.drive d with stale := (s.drive d).stale.map (· - (250 - s.clock.sinceQuarter)) }
        let k := max 1 (s.active.gov.decel / 4)
        let slowed : Int := if 0 ≤ x.speed then x.speed - (min x.speed.natAbs k : Nat) else x.speed + (min x.speed.natAbs k : Nat)
        let v := speedTarget slowed s.governor.ceilingF s.governor.ceilingV
        (x.state ≠ .substituting → u.drive d = x) ∧
        (x.state = .substituting →
          u.drive d = { x with
            state := if v = 0 then .held else .substituting, speed := v, subs := min (x.subs + 1) 255 } ∧
          (∀ n, s.mode = .screen → s.active.nodeOf (.drive d) = some n →
            ∃ seq, { key := .substitute d
                     frame := Frame.build n s.envelope.own codeSpeedOrder flagOrigin seq
                       (sbe2 v ++ [if v = 0 then 0 else 1]) } ∈ u.path.origin))

/-- A staleness timer and the encoder watch timer at their ends: with `ms` left to run, those pass first at the time base and at every
timer. A staleness timer is left stopped, and a FOLLOWING drive enters SUBSTITUTING with its count at 0 and a STALE ENTERED notice
(R131, R134). With the watch timer the position becomes UNKNOWN, every reported membership NONE, and the ceilings follow; the fix,
the last-known memberships and the marks are kept (R38, R39, R120). That the command is the moment of the end, so that the ms left
pass, and that it does nothing at a stopped timer, is the model's (log entry 9). -/
def Obligations.TimersRunOut : Prop :=
  ∀ (ms : Nat) (s : State), s.phase = .running →
    let a : State := { s with
      clock := { s.clock with now := s.clock.now + ms, sinceQuarter := s.clock.sinceQuarter + ms }
      rim := { s.rim with watch := s.rim.watch.map (· - ms) }
      governor := { s.governor with
        drives := Vector.ofFn fun d => { s.governor.drives[d] with stale := (s.governor.drives[d]).stale.map (· - ms) } }
      policy := { s.policy with timer := s.policy.timer.map (· - ms), walkAge := s.policy.walkAge + ms }
      notices := { s.notices with flush := s.notices.flush.map (· - ms) } }
    (∀ d : DriveIx,
      ((s.drive d).stale = some ms → (s.drive d).state = .following →
        exec (.stalenessTimerExpiry d) s =
          .next ((a.withDrive d { s.drive d with state := .substituting, subs := 0, stale := none }).post .stale
            (decide (s.mode = .monitor)) (byte d.val) 0 (sHi (s.drive d).speed) (sLo (s.drive d).speed) 0).close) ∧
      ((s.drive d).stale = some ms → (s.drive d).state ≠ .following →
        exec (.stalenessTimerExpiry d) s = .next (a.withDrive d { s.drive d with stale := none }).close) ∧
      ((s.drive d).stale = none → exec (.stalenessTimerExpiry d) s = .next s.close)) ∧
    (s.rim.watch = some ms → ∃ t : State, exec .encoderWatchExpiry s = .next t ∧
      t.rim = { s.rim with known := false, watch := none } ∧ (∀ c, t.reported c = none) ∧
      t.governor = { a.governor with
        ceilingF := t.forwardNow, ceilingV := t.reverseNow, rimHold := t.governor.rimHold } ∧
      (t.governor.rimHold = true ↔ s.mode = .screen ∧ t.forwardNow = 0 ∧ t.reverseNow = 0) ∧
      a.OnlyChanges t [.rim, .governor, .path, .notices]) ∧
    (s.rim.watch = none → exec .encoderWatchExpiry s = .next s.close)

/-- The end of the hold-down lowers a clear level by one step, sets the new level's hold-down, and hands the fall to the
governor and the scheduler; where the level is not clear, or the countdown has more to run, the step has no effect. The step
of its own is the model's (log entry 10); the fall is that of R104, R107 and R142. -/
def Obligations.HoldDownEndLowersTheLevel : Prop :=
  ∀ s : State, s.phase = .running →
    (s.wind.level ≠ .opened → s.levelClear = true → s.wind.countdown ≤ 1 →
      ∃ t : State, exec .holdDownExpiry s = .next t ∧
        t.wind.level.code + 1 = s.wind.level.code ∧ t.wind.countdown = s.active.holdDown t.wind.level ∧
        t.wind.channels = s.wind.channels ∧ t.wind.floor = s.wind.floor ∧
        t.governor.ceilingF = t.forwardNow ∧ t.governor.ceilingV = t.reverseNow ∧
        (t.sweep.wind = true ↔ 3 ≤ t.wind.level.code) ∧
        s.OnlyChanges t [.wind, .governor, .sweep, .cabins, .path, .notices]) ∧
    ((s.wind.level = .opened ∨ s.levelClear = false ∨ 1 < s.wind.countdown) →
      exec .holdDownExpiry s = .next s.close)

/-- A third empty second makes a channel STALE and empties its rings (R98), and a third pushed second makes a WARMING channel
LIVE (R97); other channels are kept, and the live count follows (R101). Taking the step by itself is the model's
(log entry 10). -/
def Obligations.ChannelStepsOfATick : Prop :=
  ∀ (c : ChannelIx) (s : State), s.phase = .running →
    let x := s.wind.channels[c]
    ((x.state = .warming ∨ x.state = .live) → x.bucketCount = 0 → 2 ≤ x.stale →
      ∃ t : State, exec (.channelStale c) s = .next t ∧
        t.wind.channels[c] = { x with
          state := .stale, bucketMax := 0, bucketSum := 0, bucketCount := 0, held := none, gustRing := [], sustRing := []
          sustSum := 0, filled := 0, stale := 2, warm := 0 } ∧
        (∀ e : ChannelIx, e ≠ c → t.wind.channels[e] = s.wind.channels[e]) ∧
        t.wind.live = t.liveChannels.length ∧
        s.OnlyChanges t [.wind, .governor, .sweep, .cabins, .path, .notices]) ∧
    (x.state = .warming → x.warm = 2 → 0 < x.bucketCount →
      ∃ t : State, exec (.channelLive c) s = .next t ∧
        (t.wind.channels[c]).state = .live ∧ (t.wind.channels[c]).warm = 3 ∧ (t.wind.channels[c]).bucketCount = 0 ∧
        (t.wind.channels[c]).held = some { max := x.bucketMax, mean := x.bucketSum / x.bucketCount } ∧
        (t.wind.channels[c]).gustRing.getLast? = some x.bucketMax ∧
        (t.wind.channels[c]).sustRing.getLast? = some (x.bucketSum / x.bucketCount) ∧
        (∀ e : ChannelIx, e ≠ c → t.wind.channels[e] = s.wind.channels[e]) ∧
        t.wind.live = t.liveChannels.length ∧
        s.OnlyChanges t [.wind, .governor, .sweep, .cabins, .path, .notices])

/-! ## Wind, sweep and cabin requests -/

/-- Set Operator Floor sets the floor and raises a level below it, or below a blind level that holds, at once, and lowers none; a
level above 4 is refused RANGE (R105, R106). -/
def Obligations.OperatorFloorRaisesTheLevel : Prop :=
  ∀ (who : Requester) (level : Byte) (s : State), s.Takes →
    (∀ l, Level.ofCode level.toNat = some l →
      let blind := s.active.floorsRecord.blind
      let least := if s.belowQuorum = true ∧ l.code < blind.code then blind else l
      ∃ u : State,
        exec (.setOperatorFloor who level) s = .next (u.replied who .done [byte l.code, byte u.wind.level.code]).close ∧
        u.wind.floor = l ∧ u.wind.channels = s.wind.channels ∧
        (least.code ≤ s.wind.level.code → u = s.withWind { s.wind with floor := l }) ∧
        (s.wind.level.code < least.code →
          u.wind.level = least ∧ u.wind.countdown = s.active.holdDown least ∧
          u.governor.ceilingF = u.forwardNow ∧ u.governor.ceilingV = u.reverseNow ∧
          (u.sweep.wind = true ↔ 3 ≤ least.code)) ∧
        s.OnlyChanges u [.wind, .governor, .sweep, .cabins, .path, .notices]) ∧
    (4 < level.toNat → exec (.setOperatorFloor who level) s = .next (s.replied who .range []).close)

/-- Begin Sweep adds OPERATOR, End Sweep removes it and Open Boarding removes CLOSE; one that finds its cause already so changes
nothing but its reply. A begun sweep lists the qualifying cabins, PENDING, behind those listed; the last cause out empties
the list and clears every mark and pass count (R141 to R143, R154, R155). -/
def Obligations.SweepRequestsMoveTheCauses : Prop :=
  ∀ (who : Requester) (s : State), s.Takes → s.envelope.count ≤ 64 →
    let reply (u : State) := (u.replied who .done [byte u.sweep.state.code, byte u.sweep.causeCode, byte u.unloadList.length]).close
    let gone (u : State) := u.sweep.list = [] ∧ u.sweep.state = .idle ∧
      ∀ c, 1 ≤ c → c ≤ 64 → (u.cabin c).mark = none ∧ (u.cabin c).passes = 0
    (s.sweep.operator = true → exec (.beginSweep who) s = .next (reply s)) ∧
    (s.sweep.operator = false → exec (.endSweep who) s = .next (reply s)) ∧
    (s.sweep.close = false → exec (.openBoarding who) s = .next (reply s)) ∧
    (s.sweep.operator = false → ∃ u, exec (.beginSweep who) s = .next (reply u) ∧
      u.sweep.operator = true ∧ u.sweep.wind = s.sweep.wind ∧ u.sweep.close = s.sweep.close ∧
      u.sweep.served = s.sweep.served ∧ u.sweep.list = s.sweep.list ++ s.joining ∧
      (∀ c ∈ s.joining, (u.cabin c).mark = some .pending) ∧
      u.sweep.state = u.sweepStateNow ∧ s.OnlyChanges u [.sweep, .cabins, .notices]) ∧
    (s.sweep.operator = true → ∃ u, exec (.endSweep who) s = .next (reply u) ∧
      u.sweep.operator = false ∧ u.sweep.wind = s.sweep.wind ∧ u.sweep.close = s.sweep.close ∧
      u.sweep.served = s.sweep.served ∧
      (s.sweep.wind = false → s.sweep.close = false → gone u) ∧
      ((s.sweep.wind = true ∨ s.sweep.close = true) →
        u.sweep.list = s.sweep.list ∧ u.cabins = s.cabins ∧ u.sweep.state = u.sweepStateNow) ∧
      s.OnlyChanges u [.sweep, .cabins, .notices]) ∧
    (s.sweep.close = true → ∃ u, exec (.openBoarding who) s = .next (reply u) ∧
      u.sweep.close = false ∧ u.sweep.wind = s.sweep.wind ∧ u.sweep.operator = s.sweep.operator ∧
      u.sweep.served = s.sweep.served ∧
      (s.sweep.wind = false → s.sweep.operator = false → gone u) ∧
      ((s.sweep.wind = true ∨ s.sweep.operator = true) →
        u.sweep.list = s.sweep.list ∧ u.cabins = s.cabins ∧ u.sweep.state = u.sweepStateNow) ∧
      u.wind = { s.wind with sent := u.wind.sent } ∧
      s.OnlyChanges u [.sweep, .cabins, .wind, .path, .notices])

/-- Set Service sets the cabin's service state and takes a listed cabin that leaves service off the sweep list (R64, R150). Set
Occupancy sets the occupancy, makes it COUNTED, clears assist aboard at 0, takes an emptied cabin off the sweep list and puts an
occupied IN_SERVICE cabin on it while a sweep is in force (R65, R150). Neither changes another record; values outside their range
are refused RANGE. -/
def Obligations.CabinRequestsActOnTheCabin : Prop :=
  ∀ (who : Requester) (cabin : Byte) (s : State), s.Takes → s.envelope.count ≤ 64 →
    (∀ service : Byte,
      let c := cabin.toNat
      (1 ≤ c → c ≤ s.envelope.count → (service = 1 ∨ service = 2) →
        ∃ u : State, exec (.setService who cabin service) s = .next (u.replied who .done []).close ∧
          let leaves := service = 2 ∧ (s.cabin c).inService = true ∧ s.listed c = true
          u.cabin c = { s.cabin c with
            inService := decide (service = 1), mark := (u.cabin c).mark } ∧
          (leaves → (u.cabin c).mark = none ∧ u.sweep.list = s.sweep.list.filter (· ≠ c)) ∧
          (¬ leaves → (u.cabin c).mark = (s.cabin c).mark ∧ u.sweep = s.sweep) ∧
          (∀ x, x ≠ c → u.cabin x = s.cabin x) ∧ s.OnlyChanges u [.cabins, .sweep, .notices]) ∧
      (¬ (1 ≤ c ∧ c ≤ s.envelope.count ∧ (service = 1 ∨ service = 2)) →
        exec (.setService who cabin service) s = .next (s.replied who .range []).close)) ∧
    (∀ occupancy : Byte,
      let c := cabin.toNat
      (1 ≤ c → c ≤ s.envelope.count → occupancy.toNat ≤ 63 →
        ∃ u : State, exec (.setOccupancy who cabin occupancy) s = .next (u.replied who .done []).close ∧
          let leaves := occupancy = 0 ∧ s.listed c = true
          let joins := occupancy ≠ 0 ∧ s.listed c = false ∧ (s.cabin c).inService = true ∧ s.sweep.state ≠ .idle
          u.cabin c = { s.cabin c with
            occupancy := occupancy.toNat, uncertain := false, assist := (s.cabin c).assist && decide (occupancy ≠ 0)
            mark := (u.cabin c).mark } ∧
          (leaves → (u.cabin c).mark = none ∧ u.sweep.list = s.sweep.list.filter (· ≠ c)) ∧
          (joins → (u.cabin c).mark = some .pending ∧ u.sweep.list = s.sweep.list ++ [c]) ∧
          (¬ leaves → ¬ joins → (u.cabin c).mark = (s.cabin c).mark ∧ u.sweep = s.sweep) ∧
          (∀ x, x ≠ c → u.cabin x = s.cabin x) ∧ s.OnlyChanges u [.cabins, .sweep, .notices]) ∧
      (¬ (1 ≤ c ∧ c ≤ s.envelope.count ∧ occupancy.toNat ≤ 63) →
        exec (.setOccupancy who cabin occupancy) s = .next (s.replied who .range []).close))

/-! ## Tables and commits -/

/-- Read Status and Read Directory change nothing but the reply, whose data are those of R177 and R175; a first header above 15
is refused RANGE. -/
def Obligations.StatusAndDirectoryAreRead : Prop :=
  ∀ (who : Requester) (first : Byte) (s : State), s.Takes →
    exec (.readStatus who) s = .next (s.replied who .done
      ([byte s.mode.code, byte s.policy.active.code, byte s.policy.commit.code, byte s.wind.level.code] ++
        be2 s.wind.countdown ++ [byte s.wind.live] ++ be2 s.wind.effGust ++ be2 s.wind.effSust ++
        be2 s.governor.ceilingF ++ [byte s.governor.ceilingV, if s.rim.known then 1 else 0] ++
        be3 s.lastFix.position ++ sbe2 s.lastFix.speed ++
        [byte s.sweep.state.code, byte s.sweep.causeCode, if s.governor.latch then 1 else 0, byte s.notices.freeze.code] ++
        be2 s.notices.lost ++ [if s.clock.set then 1 else 0] ++ be3 (if s.clock.set then s.clock.time else 0))).close ∧
    (first.toNat ≤ 15 →
      let headers := (allTables.drop first.toNat).take 5
      exec (.readDirectory who first) s = .next (s.replied who .done
        ([0x41, 0x4A, 0x44, 0x4E, 1, 0, 16] ++ be4 (Config.serialNumber.toNat / 4294967296) ++
          be4 (Config.serialNumber.toNat % 4294967296) ++ [byte s.envelope.code, byte headers.length] ++
          headers.flatMap fun t => [byte t.ident, 1, byte t.entrySize, byte t.entries, byte (s.inUse t)])).close) ∧
    (15 < first.toNat → exec (.readDirectory who first) s = .next (s.replied who .range []).close)

/-- Read Table answers the entries from the first index on, wrapping, as many of those asked as fit whole in a reply and one at
least, and changes nothing but the reply; a table, bank, index or count outside its range is refused RANGE (R161). That this holds
for WIND_CHANNELS too, against the example in R116, is the model's (log entry 43). -/
def Obligations.ReadTableFitsWholeEntries : Prop :=
  ∀ (who : Requester) (table bank first count : Byte) (s : State), s.Takes →
    (∀ (t : Table) (k : BankNo), Table.ofIdent table.toNat = some t →
      (t.banked = true → BankNo.ofCode bank.toNat = some k) → first.toNat < t.entries →
      1 ≤ count.toNat → count.toNat ≤ 16 →
      let entry (j : Nat) := s.readEntry (s.bank k) t ((first.toNat + j) % t.entries)
      ∃ n, 1 ≤ n ∧ n ≤ count.toNat ∧
        exec (.readTable who table bank first count) s =
          .next (s.replied who .done ([byte t.ident, bank, byte n] ++ (List.range n).flatMap entry)).close ∧
        ((List.range n).flatMap entry).length ≤ 42 ∧
        (n < count.toNat → 42 < ((List.range (n + 1)).flatMap entry).length)) ∧
    ((Table.ofIdent table.toNat = none ∨
        (∃ t, Table.ofIdent table.toNat = some t ∧
          (t.banked = true ∧ 2 < bank.toNat ∨ t.entries ≤ first.toNat ∨ count.toNat < 1 ∨ 16 < count.toNat))) →
      exec (.readTable who table bank first count) s = .next (s.replied who .range []).close)

/-- Write Staging is judged in the order of R162: BUSY with a commit in flight, RANGE for a bank that is not loadable, STATE for
one that is not the staging bank, RANGE where a later step refuses; a write that passes replaces the staging bank's entries
and nothing else (R158, R162). That a count of 0 or above 16 is refused RANGE, behind BUSY and STATE, is the model's (log entry 23). -/
def Obligations.WriteStagingIsJudged : Prop :=
  ∀ (who : Requester) (bank table first count : Byte) (entries : List Byte) (s : State), s.Takes →
    let refused (o : ReplyOutcome) :=
      exec (.writeStaging who bank table first count entries) s = .next (s.replied who o []).close
    (s.policy.commit ≠ .idle → refused .busy) ∧
    (s.policy.commit = .idle → bank.toNat ≠ 1 → bank.toNat ≠ 2 → refused .range) ∧
    (∀ b, s.policy.commit = .idle → LoadBank.ofCode bank.toNat = some b → b ≠ s.policy.staging → refused .state) ∧
    (s.policy.commit = .idle → LoadBank.ofCode bank.toNat = some s.policy.staging →
      ((∀ t, Table.ofIdent table.toNat = some t → t.banked = false) → refused .range) ∧
      (∀ t, Table.ofIdent table.toNat = some t → t.banked = true →
        (t.entries < first.toNat + count.toNat ∨ count.toNat < 1 ∨ 16 < count.toNat ∨
          entries.length ≠ t.writeBytes first.toNat count.toNat → refused .range) ∧
        (1 ≤ count.toNat → count.toNat ≤ 16 → first.toNat + count.toNat ≤ t.entries →
          entries.length = t.writeBytes first.toNat count.toNat →
          ((s.loadBank s.policy.staging).writeEntries t first.toNat count.toNat entries = none → refused .range) ∧
          (∀ k, (s.loadBank s.policy.staging).writeEntries t first.toNat count.toNat entries = some k →
            ∃ u : State,
              exec (.writeStaging who bank table first count entries) s = .next (u.replied who .done [count]).close ∧
              u.loadBank s.policy.staging = k ∧
              u.loadBank s.policy.staging.other = s.loadBank s.policy.staging.other ∧
              u.policy = { s.policy with bank1 := u.policy.bank1, bank2 := u.policy.bank2 } ∧
              s.OnlyChanges u [.policy]))))

/-- An entry written to a bank table reads back as the bytes written, and every other entry of every table reads as before
(R160 to R162). -/
def Obligations.WrittenEntryReadsBack : Prop :=
  ∀ (k k' : Bank) (t : Table) (i : Nat) (bytes : List Byte), i < t.entries → bytes.length = t.writeSize i →
    k.writeEntry t i bytes = some k' →
    k'.entryBytes t i = bytes ∧
      ∀ (x : Table) (j : Nat), j < x.entries → (x ≠ t ∨ j ≠ i) → k'.entryBytes x j = k.entryBytes x j

/-- Commit Staging is refused BUSY, RANGE and STATE in this order, and otherwise starts the walk of the staging bank and the
60,000 ms timer, and is answered ACCEPTED with the bank (R163). Abort Commit ends a commit in flight ABORTED and is refused STATE
with none; the commit timer's expiry ends a PENDING commit TIMED_OUT; neither changes a bank (R168, R169, R172), and with a restart
deferred the restart is carried out before the COMMIT notice is posted (R171). That the expiry does nothing while the commit is not
PENDING is log entry 35, and at a stopped timer log entry 9: the model's. -/
def Obligations.CommitStartsAndEnds : Prop :=
  ∀ (who : Requester) (bank : Byte) (s : State),
    let ended := { s.policy with commit := .idle, commitBank := none, timer := none }
    let restarted (t : State) := t.policy = { ended with deferred := false } ∧ t.rim = RimTracker.reset ∧
      t.board.grants = { a := none, b := none } ∧ t.governor.drives = s.governor.drives ∧
      ∀ c, (t.cabin c).occupancy = (s.cabin c).occupancy
    (s.Takes →
      (s.policy.commit ≠ .idle → exec (.commitStaging who bank) s = .next (s.replied who .busy []).close) ∧
      (s.policy.commit = .idle → bank.toNat ≠ 1 → bank.toNat ≠ 2 →
        exec (.commitStaging who bank) s = .next (s.replied who .range []).close) ∧
      (∀ b, s.policy.commit = .idle → LoadBank.ofCode bank.toNat = some b → b ≠ s.policy.staging →
        exec (.commitStaging who bank) s = .next (s.replied who .state []).close) ∧
      (s.policy.commit = .idle → LoadBank.ofCode bank.toNat = some s.policy.staging →
        exec (.commitStaging who bank) s =
          .next ((s.withPolicy { s.policy with
            commit := .walking, commitBank := some s.policy.staging, timer := some 60000
            walk := s.policy.walk + 1, walkAge := 0 }).replied who .accepted [bank]).close) ∧
      (s.policy.commit = .idle → exec (.abortCommit who) s = .next (s.replied who .state []).close) ∧
      (s.policy.commit ≠ .idle → s.policy.deferred = false →
        exec (.abortCommit who) s =
          .next (((s.withPolicy ended).post .commit false 3
            (byte s.policy.active.code) (byte s.policy.commit.code) 0 (byte s.policy.staging.code)).replied who .done
              []).close) ∧
      (s.policy.commit ≠ .idle → s.policy.deferred = true →
        ∃ u : State, restarted u ∧ exec (.abortCommit who) s =
          .next ((u.post .commit false 3 (byte s.policy.active.code) (byte s.policy.commit.code) 0
            (byte s.policy.staging.code)).replied who .done []).close)) ∧
    (s.phase = .running → s.policy.commit = .pending → s.policy.timer = some 0 → s.policy.deferred = false →
      exec .commitTimerExpiry s =
        .next ((s.withPolicy ended).post .commit false 2
          (byte s.policy.active.code) 2 0 (byte s.policy.staging.code)).close) ∧
    (s.phase = .running → s.policy.commit = .pending → s.policy.timer = some 0 → s.policy.deferred = true →
      ∃ u : State, restarted u ∧ exec .commitTimerExpiry s =
        .next (u.post .commit false 2 (byte s.policy.active.code) 2 0 (byte s.policy.staging.code)).close) ∧
    (s.phase = .running → (s.policy.timer = none ∨ s.policy.commit ≠ .pending) →
      exec .commitTimerExpiry s = .next s.close)

/-- The completion of the walk in progress ends the commit REJECTED with the first failure's check, table and index, carrying out a
deferred restart before the notice, or makes it PENDING while a grant is held, or swaps the bank in at once; a completion of another
walk, or with none in progress, is discarded (R163, R165, R171, R172). At the safe point the swap makes the commit bank active and
the other loadable bank the staging bank, ends the commit and with it a deferred restart, and the blocks take the new bank: the
channels its nodes, the conditions and the ceilings their new values; away from the safe point there is no swap (R158, R165 to
R167, R171). SWAP as a step of its own is the model's (log entry 12). -/
def Obligations.CommitBankIsSwappedIn : Prop :=
  ∀ s : State, s.phase = .running →
    let swapped (b : LoadBank) (t : State) :=
      t.policy = { s.policy with
        active := b.toBankNo, staging := b.other, commit := .idle, commitBank := none, timer := none, deferred := false } ∧
      t.ConditionsAgree ∧ t.governor.ceilingF = t.forwardNow ∧ t.governor.ceilingV = t.reverseNow ∧
      t.board.grants = s.board.grants ∧ t.governor.drives = s.governor.drives ∧
      (∀ c : ChannelIx, (t.wind.channels[c]).node = (s.loadBank b).nodeOf (.anemometer c)) ∧
      (s.policy.deferred = false → t.rim.known = s.rim.known ∧ t.rim.fix = s.rim.fix) ∧
      (s.policy.deferred = true → t.rim = RimTracker.reset) ∧
      s.OnlyChanges t [.policy, .rim, .board, .wind, .governor, .sweep, .cabins, .path, .notices]
    (∀ w, (s.policy.commit ≠ .walking ∨ s.policy.walk ≠ w) → exec (.commitWalkCompletion w) s = .next s.close) ∧
    (∀ b, s.policy.commitBank = some b → s.policy.commit = .walking →
      let ended := { s.policy with commit := .idle, commitBank := none, timer := none }
      (∀ f, commitWalk (s.loadBank b) s.envelope = some f →
        (s.policy.deferred = false →
          exec (.commitWalkCompletion s.policy.walk) s =
            .next ((s.withPolicy ended).post .commit false 1
              (byte s.policy.active.code) (byte f.check) (byte f.table) (byte f.index)).close) ∧
        (s.policy.deferred = true →
          ∃ u : State, u.policy = { ended with deferred := false } ∧ u.rim = RimTracker.reset ∧
            u.board.grants = { a := none, b := none } ∧ u.governor.drives = s.governor.drives ∧
            exec (.commitWalkCompletion s.policy.walk) s =
              .next (u.post .commit false 1
                (byte s.policy.active.code) (byte f.check) (byte f.table) (byte f.index)).close)) ∧
      (commitWalk (s.loadBank b) s.envelope = none → s.noGrants = false →
        exec (.commitWalkCompletion s.policy.walk) s = .next (s.withPolicy { s.policy with commit := .pending }).close) ∧
      (commitWalk (s.loadBank b) s.envelope = none → s.noGrants = true →
        ∃ t, exec (.commitWalkCompletion s.policy.walk) s = .next t ∧ swapped b t)) ∧
    (∀ b, s.policy.commitBank = some b → s.policy.commit = .pending → s.noGrants = true →
      ∃ t : State, exec .swap s = .next t ∧ swapped b t) ∧
    ((s.policy.commit ≠ .pending ∨ s.noGrants = false) → exec .swap s = .next s.close)

/-- Revert to Floor makes bank 0 active, keeps the staging bank, ends a commit in flight, brings the level to PARK with every
channel UNASSIGNED and both ceilings 0, and keeps the grants unless it carries a deferred restart out; with bank 0 active and
no commit in flight it changes nothing but the reply, and with one in flight it ends that commit ABORTED, a deferred restart
first (R109, R110, R118, R170 to R172). -/
def Obligations.RevertBringsTheFloor : Prop :=
  ∀ (who : Requester) (s : State), s.Takes →
    (s.policy.active ≠ .floor →
      ∃ u : State, exec (.revertToFloor who) s = .next (u.replied who .done [0]).close ∧
        u.policy.active = .floor ∧ u.policy.staging = s.policy.staging ∧ u.policy.commit = .idle ∧
        u.policy.bank1 = s.policy.bank1 ∧ u.policy.bank2 = s.policy.bank2 ∧
        u.wind.level = .park ∧ (∀ c : ChannelIx, u.wind.channels[c] = Channel.unassigned) ∧
        u.governor.ceilingF = 0 ∧ u.governor.ceilingV = 0 ∧ u.ConditionsAgree ∧
        ((s.policy.commit = .idle ∨ s.policy.deferred = false) → u.board.grants = s.board.grants) ∧
        s.OnlyChanges u [.policy, .rim, .board, .wind, .governor, .sweep, .cabins, .path, .notices]) ∧
    (s.policy.active = .floor → s.policy.commit = .idle →
      exec (.revertToFloor who) s = .next (s.replied who .done [0]).close) ∧
    (s.policy.active = .floor → s.policy.commit ≠ .idle →
      let ended := { s.policy with commit := .idle, commitBank := none, timer := none }
      ∃ u : State,
        exec (.revertToFloor who) s =
          .next ((u.post .commit false 3 0 (byte s.policy.commit.code) 1 (byte s.policy.staging.code)).replied who .done
            [0]).close ∧
        (s.policy.deferred = false → u = s.withPolicy ended) ∧
        (s.policy.deferred = true →
          u.policy = { ended with deferred := false } ∧ u.rim = RimTracker.reset ∧
          u.board.grants = { a := none, b := none } ∧ u.governor.drives = s.governor.drives ∧
          ∀ c, (u.cabin c).occupancy = (s.cabin c).occupancy))

/-! ## Restarts, the envelope, the latch and the resets -/

/-- Warm Restart is deferred with ACCEPTED while a commit is in flight, and otherwise carried out and answered DONE; a deferred
one is carried out once no commit is in flight. Carried out, it empties the queues and zeroes the run count and the counter of
frames to the supervisor side, forgets the position, the grants and the gates, makes assigned channels WARMING with empty
rings and clears the served flags, and keeps the doors, the occupancies, the drives, the latch, the banks, the envelope and
the clock (R171, R186). DEFERRED_WARM_RESTART as a step of its own, and that it does nothing with no restart deferred or a
commit in flight, is the model's (log entry 12). -/
def Obligations.WarmRestartClearsThePicture : Prop :=
  ∀ (who : Requester) (s : State),
    let restarted (u : State) :=
      u.path.supForward = [] ∧ u.path.part = [] ∧ u.path.fldForward = [] ∧ u.path.runCount = 0 ∧ u.path.supSeq = 0 ∧
      (∀ o ∈ u.path.origin, ∃ b, o.key = .beacon b) ∧ u.path.supTx = s.path.supTx ∧ u.path.fldTx = s.path.fldTx ∧
      u.notices.queue = [] ∧ u.notices.buffer = [] ∧ u.notices.flush = none ∧ u.notices.freeze = .flowing ∧
      u.notices.lost = 0 ∧ u.rim = RimTracker.reset ∧ u.board.grants = { a := none, b := none } ∧
      u.board.gates = { a := GatePicture.unknown, b := GatePicture.unknown } ∧ u.ConditionsAgree ∧
      (∀ c : ChannelIx, (u.wind.channels[c]).node = (s.wind.channels[c]).node ∧
        ((s.wind.channels[c]).state ≠ .unassigned →
          (u.wind.channels[c]).state = .warming ∧ (u.wind.channels[c]).gustRing = [] ∧ (u.wind.channels[c]).sustRing = [])) ∧
      s.wind.level.code ≤ u.wind.level.code ∧ (∀ i : Fin 64, u.sweep.served[i] = false) ∧
      u.governor.drives = s.governor.drives ∧ u.governor.latch = s.governor.latch ∧
      u.governor.ceilingF = u.forwardNow ∧ u.governor.ceilingV = u.reverseNow ∧
      (∀ c, (u.cabin c).door = (s.cabin c).door ∧ (u.cabin c).occupancy = (s.cabin c).occupancy) ∧
      s.OnlyChanges u [.policy, .rim, .board, .wind, .governor, .sweep, .cabins, .path, .notices]
    (s.Takes → s.policy.commit ≠ .idle →
      exec (.warmRestart who) s = .next ((s.withPolicy { s.policy with deferred := true }).replied who .accepted []).close) ∧
    (s.Takes → s.policy.commit = .idle →
      ∃ u, exec (.warmRestart who) s = .next (u.replied who .done []).close ∧ restarted u ∧ u.policy = s.policy) ∧
    (s.phase = .running → s.policy.commit = .idle → s.policy.deferred = true →
      ∃ u, exec .deferredWarmRestart s = .next u.close ∧ restarted u ∧ u.policy = { s.policy with deferred := false }) ∧
    (s.phase = .running → (s.policy.commit ≠ .idle ∨ s.policy.deferred = false) →
      exec .deferredWarmRestart s = .next s.close)

/-- Envelope Write sets a field to a value of its range and the conditions and ceilings follow; it is refused LOCKED, BUSY and
RANGE in this order. Envelope Lock locks a fully written envelope whose two nodes differ; it is refused LOCKED, BUSY and STATE
in this order (R173, R174). A new cabin count leaves every record, mark and grant and every place on the sweep list (R52), and the
sweep state follows the cabins 1 to N of the list; that it does so, and how, is the model's (log entry 29). -/
def Obligations.EnvelopeIsWrittenAndLocked : Prop :=
  ∀ (who : Requester) (field : Byte) (value : BitVec 16) (s : State), s.Takes →
    let n := value.toNat
    let written (e : Envelope) := ∃ u : State,
      exec (.envelopeWrite who field value) s = .next (u.replied who .done []).close ∧ u.envelope = e ∧
      u.ConditionsAgree ∧ u.governor.ceilingF = u.forwardNow ∧ u.governor.ceilingV = u.reverseNow ∧
      u.board.grants = s.board.grants ∧ u.board.gates = s.board.gates ∧
      (e.count = s.envelope.count → s.OnlyChanges u [.envelope, .board, .governor]) ∧
      (e.count ≠ s.envelope.count →
        u.sweep = { s.sweep with state :=
          if ¬ (s.sweep.wind = true ∨ s.sweep.close = true ∨ s.sweep.operator = true) then .idle
          else if s.wind.level = .park then .suspended
          else if ∃ c ∈ s.sweep.list, 1 ≤ c ∧ c ≤ e.count then .active
          else .done } ∧
        s.OnlyChanges u [.envelope, .board, .governor, .sweep, .notices])
    let free := s.envelope.locked = false ∧ s.policy.commit = .idle
    let refused (o : ReplyOutcome) := exec (.envelopeWrite who field value) s = .next (s.replied who o []).close
    let refusedLock (o : ReplyOutcome) := exec (.envelopeLock who) s = .next (s.replied who o []).close
    (s.envelope.locked = true → refused .locked ∧ refusedLock .locked) ∧
    (s.envelope.locked = false → s.policy.commit ≠ .idle → refused .busy ∧ refusedLock .busy) ∧
    (free → 7 < field.toNat → refused .range) ∧
    (free → field = 0 → (8 ≤ n ∧ n ≤ 64 → written { s.envelope with cabins := some n }) ∧ (¬ (8 ≤ n ∧ n ≤ 64) → refused .range)) ∧
    (free → field = 1 → (1 ≤ n ∧ n ≤ 40 → written { s.envelope with capacity := some n }) ∧ (¬ (1 ≤ n ∧ n ≤ 40) → refused .range)) ∧
    (free → field = 2 →
      (1 ≤ n ∧ n ≤ 600 → written { s.envelope with maxForward := some n }) ∧ (¬ (1 ≤ n ∧ n ≤ 600) → refused .range)) ∧
    (free → field = 3 → (n ≤ 200 → written { s.envelope with maxReverse := some n }) ∧ (200 < n → refused .range)) ∧
    (free → field = 4 → (1 ≤ n ∧ n ≤ 2 → written { s.envelope with berths := some n }) ∧ (¬ (1 ≤ n ∧ n ≤ 2) → refused .range)) ∧
    (free → field = 5 → (n ≤ 254 → written { s.envelope with ownNode := some (byte n) }) ∧ (254 < n → refused .range)) ∧
    (free → field = 6 → (n ≤ 254 → written { s.envelope with supNode := some (byte n) }) ∧ (254 < n → refused .range)) ∧
    (free → field = 7 →
      (150 ≤ n ∧ n ≤ 400 → written { s.envelope with gustCap := some n }) ∧ (¬ (150 ≤ n ∧ n ≤ 400) → refused .range)) ∧
    (free → s.envelope.complete = true → s.envelope.supNode ≠ s.envelope.ownNode →
      exec (.envelopeLock who) s =
        .next ((s.withEnvelope { s.envelope with locked := true }).replied who .done []).close) ∧
    (free → (s.envelope.complete = false ∨ s.envelope.supNode = s.envelope.ownNode) → refusedLock .state)

/-- The stop latch: an assertion of STOP_IN and a Latch Stop set a CLEAR latch, with a STOP notice of F and V as they stood, and
the ceilings become 0; a SET one stays SET with no notice. Clear Stop clears it while STOP_IN is inactive and is refused
STATE, with its data, while it is active; a release of STOP_IN leaves the latch (R135, R136). That the STOP record carries no
MONITOR flag in MONITOR mode is log entry 31, and that the replies give 1 for an active input is log entry 30: the model's. -/
def Obligations.StopLatchIsSetAndCleared : Prop :=
  ∀ (who : Requester) (s : State),
    let bit (b : Bool) : Byte := if b then 1 else 0
    let stop (u : State) (subject : Byte) := u.post .stop false subject (byte (s.governor.ceilingF / 256))
      (byte s.governor.ceilingF) (byte (s.governor.ceilingV / 256)) (byte s.governor.ceilingV)
    let latched (u : State) := u.withGovernor { s.governor with
      latch := true, ceilingF := 0, ceilingV := 0, rimHold := decide (s.mode = .screen) }
    (s.phase = .running →
      (s.governor.latch = false →
        exec .stopInAssertion s = .next (latched (stop { s with stopIn := true } 0)).close) ∧
      (s.governor.latch = true → exec .stopInAssertion s = .next ({ s with stopIn := true } : State).close) ∧
      exec .stopInRelease s = .next ({ s with stopIn := false } : State).close) ∧
    (s.Takes →
      (s.governor.latch = false →
        exec (.latchStop who) s = .next ((latched (stop s 1)).replied who .done [1, bit s.stopIn]).close) ∧
      (s.governor.latch = true → exec (.latchStop who) s = .next (s.replied who .done [1, bit s.stopIn]).close) ∧
      (s.governor.latch = false → exec (.clearStop who) s = .next (s.replied who .done [0, bit s.stopIn]).close) ∧
      (s.governor.latch = true → s.stopIn = true →
        exec (.clearStop who) s = .next (s.replied who .state [1, 1]).close) ∧
      (s.governor.latch = true → s.stopIn = false →
        ∃ u : State, exec (.clearStop who) s = .next (u.replied who .done [0, 0]).close ∧
          u.governor = { s.governor with
            latch := false, ceilingF := u.forwardNow, ceilingV := u.reverseNow, rimHold := u.governor.rimHold } ∧
          (u.governor.rimHold = true ↔ s.mode = .screen ∧ u.forwardNow = 0 ∧ u.reverseNow = 0) ∧
          s.OnlyChanges u [.governor]))

/-- Cold reset puts every block in its cold-reset state, keeps the envelope and holds the part with the line released; at its end
the MODE strap is sampled and the time base starts, with the latch SET, both ceilings 0 and the rim-hold line active in SCREEN
mode alone. The loss of power silences the transmitters and releases the line (R18, R35, R50, R112, R137, R139, R157, R158,
R187). The model's are: that cold reset holds the part until its end, and the commands without effect (log entry 13), the
conditions in reset (log entry 14), what an unpowered part keeps (log entry 15) and the number of walks kept (log entry 37). -/
def Obligations.ColdResetAndPowerLoss : Prop :=
  (∀ (cause : ResetCause) (s : State), (cause = .powerOn ∨ s.phase ≠ .unpowered) →
    ∃ t : State, exec (.coldReset cause) s = .next t ∧ t.phase = .heldInReset ∧
      t.path = FramePath.reset ∧ t.rim = RimTracker.reset ∧ t.wind = WindAssessor.reset ∧ t.governor = Governor.reset ∧
      t.sweep = SweepScheduler.reset ∧ t.notices = NoticeUnit.reset ∧ t.clock = ClockUnit.reset ∧
      t.policy = PolicyStore.reset s.policy.walk ∧
      (∀ i : Fin 64, t.cabins[i] = Cabin.reset) ∧ t.board.grants = { a := none, b := none } ∧
      t.board.gates = { a := GatePicture.unknown, b := GatePicture.unknown } ∧ t.ConditionsAgree ∧
      t.envelope = s.envelope ∧ t.stopIn = s.stopIn) ∧
  (∀ s : State, s.phase = .unpowered → exec (.coldReset .resetPin) s = .next s) ∧
  (∀ (high : Bool) (s : State),
    (s.phase ≠ .heldInReset → exec (.endOfColdReset high) s = .next s) ∧
    (s.phase = .heldInReset →
      ∃ t : State, exec (.endOfColdReset high) s = .next t ∧ t.phase = .running ∧
        t.mode = (if high then .screen else .monitor) ∧ t.clock = ClockUnit.reset ∧
        t.governor = { s.governor with rimHold := t.governor.rimHold } ∧
        (t.governor.rimHold = true ↔ high = true ∧ s.governor.ceilingF = 0 ∧ s.governor.ceilingV = 0) ∧
        s.OnlyChanges t [.phase, .mode, .clock, .governor])) ∧
  (∀ s : State, ∃ t : State, exec .powerLoss s = .next t ∧ t.phase = .unpowered ∧
    t.path.supTx = none ∧ t.path.fldTx = none ∧ t.governor = { s.governor with rimHold := true } ∧
    s.OnlyChanges t [.phase, .path, .governor])

end
end

