-- ==== Sys2Proof/Laws/State.lean ====
section
/-! SUPPORT. One lemma for each field of the state under each replacement of a block: the field is the new value, or as it
was. -/

namespace Sys2Proof.Machine.State

variable (s : State)

/-! ### withClock -/

section
variable (x : ClockUnit)
@[simp] theorem withClock_pending : (s.withClock x).pending = s.pending := rfl
@[simp] theorem withClock_phase : (s.withClock x).phase = s.phase := rfl
@[simp] theorem withClock_mode : (s.withClock x).mode = s.mode := rfl
@[simp] theorem withClock_stopIn : (s.withClock x).stopIn = s.stopIn := rfl
@[simp] theorem withClock_clock : (s.withClock x).clock = x := rfl
@[simp] theorem withClock_path : (s.withClock x).path = s.path := rfl
@[simp] theorem withClock_rim : (s.withClock x).rim = s.rim := rfl
@[simp] theorem withClock_cabins : (s.withClock x).cabins = s.cabins := rfl
@[simp] theorem withClock_board : (s.withClock x).board = s.board := rfl
@[simp] theorem withClock_wind : (s.withClock x).wind = s.wind := rfl
@[simp] theorem withClock_governor : (s.withClock x).governor = s.governor := rfl
@[simp] theorem withClock_sweep : (s.withClock x).sweep = s.sweep := rfl
@[simp] theorem withClock_policy : (s.withClock x).policy = s.policy := rfl
@[simp] theorem withClock_envelope : (s.withClock x).envelope = s.envelope := rfl
@[simp] theorem withClock_notices : (s.withClock x).notices = s.notices := rfl
end

/-! ### withPath -/

section
variable (x : FramePath)
@[simp] theorem withPath_pending : (s.withPath x).pending = s.pending := rfl
@[simp] theorem withPath_phase : (s.withPath x).phase = s.phase := rfl
@[simp] theorem withPath_mode : (s.withPath x).mode = s.mode := rfl
@[simp] theorem withPath_stopIn : (s.withPath x).stopIn = s.stopIn := rfl
@[simp] theorem withPath_clock : (s.withPath x).clock = s.clock := rfl
@[simp] theorem withPath_path : (s.withPath x).path = x := rfl
@[simp] theorem withPath_rim : (s.withPath x).rim = s.rim := rfl
@[simp] theorem withPath_cabins : (s.withPath x).cabins = s.cabins := rfl
@[simp] theorem withPath_board : (s.withPath x).board = s.board := rfl
@[simp] theorem withPath_wind : (s.withPath x).wind = s.wind := rfl
@[simp] theorem withPath_governor : (s.withPath x).governor = s.governor := rfl
@[simp] theorem withPath_sweep : (s.withPath x).sweep = s.sweep := rfl
@[simp] theorem withPath_policy : (s.withPath x).policy = s.policy := rfl
@[simp] theorem withPath_envelope : (s.withPath x).envelope = s.envelope := rfl
@[simp] theorem withPath_notices : (s.withPath x).notices = s.notices := rfl
end

/-! ### withRim -/

section
variable (x : RimTracker)
@[simp] theorem withRim_pending : (s.withRim x).pending = s.pending := rfl
@[simp] theorem withRim_phase : (s.withRim x).phase = s.phase := rfl
@[simp] theorem withRim_mode : (s.withRim x).mode = s.mode := rfl
@[simp] theorem withRim_stopIn : (s.withRim x).stopIn = s.stopIn := rfl
@[simp] theorem withRim_clock : (s.withRim x).clock = s.clock := rfl
@[simp] theorem withRim_path : (s.withRim x).path = s.path := rfl
@[simp] theorem withRim_rim : (s.withRim x).rim = x := rfl
@[simp] theorem withRim_cabins : (s.withRim x).cabins = s.cabins := rfl
@[simp] theorem withRim_board : (s.withRim x).board = s.board := rfl
@[simp] theorem withRim_wind : (s.withRim x).wind = s.wind := rfl
@[simp] theorem withRim_governor : (s.withRim x).governor = s.governor := rfl
@[simp] theorem withRim_sweep : (s.withRim x).sweep = s.sweep := rfl
@[simp] theorem withRim_policy : (s.withRim x).policy = s.policy := rfl
@[simp] theorem withRim_envelope : (s.withRim x).envelope = s.envelope := rfl
@[simp] theorem withRim_notices : (s.withRim x).notices = s.notices := rfl
end

/-! ### withCabins -/

section
variable (x : Vector Cabin 64)
@[simp] theorem withCabins_pending : (s.withCabins x).pending = s.pending := rfl
@[simp] theorem withCabins_phase : (s.withCabins x).phase = s.phase := rfl
@[simp] theorem withCabins_mode : (s.withCabins x).mode = s.mode := rfl
@[simp] theorem withCabins_stopIn : (s.withCabins x).stopIn = s.stopIn := rfl
@[simp] theorem withCabins_clock : (s.withCabins x).clock = s.clock := rfl
@[simp] theorem withCabins_path : (s.withCabins x).path = s.path := rfl
@[simp] theorem withCabins_rim : (s.withCabins x).rim = s.rim := rfl
@[simp] theorem withCabins_cabins : (s.withCabins x).cabins = x := rfl
@[simp] theorem withCabins_board : (s.withCabins x).board = s.board := rfl
@[simp] theorem withCabins_wind : (s.withCabins x).wind = s.wind := rfl
@[simp] theorem withCabins_governor : (s.withCabins x).governor = s.governor := rfl
@[simp] theorem withCabins_sweep : (s.withCabins x).sweep = s.sweep := rfl
@[simp] theorem withCabins_policy : (s.withCabins x).policy = s.policy := rfl
@[simp] theorem withCabins_envelope : (s.withCabins x).envelope = s.envelope := rfl
@[simp] theorem withCabins_notices : (s.withCabins x).notices = s.notices := rfl
end

/-! ### withBoard -/

section
variable (x : BoardingScreen)
@[simp] theorem withBoard_pending : (s.withBoard x).pending = s.pending := rfl
@[simp] theorem withBoard_phase : (s.withBoard x).phase = s.phase := rfl
@[simp] theorem withBoard_mode : (s.withBoard x).mode = s.mode := rfl
@[simp] theorem withBoard_stopIn : (s.withBoard x).stopIn = s.stopIn := rfl
@[simp] theorem withBoard_clock : (s.withBoard x).clock = s.clock := rfl
@[simp] theorem withBoard_path : (s.withBoard x).path = s.path := rfl
@[simp] theorem withBoard_rim : (s.withBoard x).rim = s.rim := rfl
@[simp] theorem withBoard_cabins : (s.withBoard x).cabins = s.cabins := rfl
@[simp] theorem withBoard_board : (s.withBoard x).board = x := rfl
@[simp] theorem withBoard_wind : (s.withBoard x).wind = s.wind := rfl
@[simp] theorem withBoard_governor : (s.withBoard x).governor = s.governor := rfl
@[simp] theorem withBoard_sweep : (s.withBoard x).sweep = s.sweep := rfl
@[simp] theorem withBoard_policy : (s.withBoard x).policy = s.policy := rfl
@[simp] theorem withBoard_envelope : (s.withBoard x).envelope = s.envelope := rfl
@[simp] theorem withBoard_notices : (s.withBoard x).notices = s.notices := rfl
end

/-! ### withWind -/

section
variable (x : WindAssessor)
@[simp] theorem withWind_pending : (s.withWind x).pending = s.pending := rfl
@[simp] theorem withWind_phase : (s.withWind x).phase = s.phase := rfl
@[simp] theorem withWind_mode : (s.withWind x).mode = s.mode := rfl
@[simp] theorem withWind_stopIn : (s.withWind x).stopIn = s.stopIn := rfl
@[simp] theorem withWind_clock : (s.withWind x).clock = s.clock := rfl
@[simp] theorem withWind_path : (s.withWind x).path = s.path := rfl
@[simp] theorem withWind_rim : (s.withWind x).rim = s.rim := rfl
@[simp] theorem withWind_cabins : (s.withWind x).cabins = s.cabins := rfl
@[simp] theorem withWind_board : (s.withWind x).board = s.board := rfl
@[simp] theorem withWind_wind : (s.withWind x).wind = x := rfl
@[simp] theorem withWind_governor : (s.withWind x).governor = s.governor := rfl
@[simp] theorem withWind_sweep : (s.withWind x).sweep = s.sweep := rfl
@[simp] theorem withWind_policy : (s.withWind x).policy = s.policy := rfl
@[simp] theorem withWind_envelope : (s.withWind x).envelope = s.envelope := rfl
@[simp] theorem withWind_notices : (s.withWind x).notices = s.notices := rfl
end

/-! ### withGovernor -/

section
variable (x : Governor)
@[simp] theorem withGovernor_pending : (s.withGovernor x).pending = s.pending := rfl
@[simp] theorem withGovernor_phase : (s.withGovernor x).phase = s.phase := rfl
@[simp] theorem withGovernor_mode : (s.withGovernor x).mode = s.mode := rfl
@[simp] theorem withGovernor_stopIn : (s.withGovernor x).stopIn = s.stopIn := rfl
@[simp] theorem withGovernor_clock : (s.withGovernor x).clock = s.clock := rfl
@[simp] theorem withGovernor_path : (s.withGovernor x).path = s.path := rfl
@[simp] theorem withGovernor_rim : (s.withGovernor x).rim = s.rim := rfl
@[simp] theorem withGovernor_cabins : (s.withGovernor x).cabins = s.cabins := rfl
@[simp] theorem withGovernor_board : (s.withGovernor x).board = s.board := rfl
@[simp] theorem withGovernor_wind : (s.withGovernor x).wind = s.wind := rfl
@[simp] theorem withGovernor_governor : (s.withGovernor x).governor = x := rfl
@[simp] theorem withGovernor_sweep : (s.withGovernor x).sweep = s.sweep := rfl
@[simp] theorem withGovernor_policy : (s.withGovernor x).policy = s.policy := rfl
@[simp] theorem withGovernor_envelope : (s.withGovernor x).envelope = s.envelope := rfl
@[simp] theorem withGovernor_notices : (s.withGovernor x).notices = s.notices := rfl
end

/-! ### withSweep -/

section
variable (x : SweepScheduler)
@[simp] theorem withSweep_pending : (s.withSweep x).pending = s.pending := rfl
@[simp] theorem withSweep_phase : (s.withSweep x).phase = s.phase := rfl
@[simp] theorem withSweep_mode : (s.withSweep x).mode = s.mode := rfl
@[simp] theorem withSweep_stopIn : (s.withSweep x).stopIn = s.stopIn := rfl
@[simp] theorem withSweep_clock : (s.withSweep x).clock = s.clock := rfl
@[simp] theorem withSweep_path : (s.withSweep x).path = s.path := rfl
@[simp] theorem withSweep_rim : (s.withSweep x).rim = s.rim := rfl
@[simp] theorem withSweep_cabins : (s.withSweep x).cabins = s.cabins := rfl
@[simp] theorem withSweep_board : (s.withSweep x).board = s.board := rfl
@[simp] theorem withSweep_wind : (s.withSweep x).wind = s.wind := rfl
@[simp] theorem withSweep_governor : (s.withSweep x).governor = s.governor := rfl
@[simp] theorem withSweep_sweep : (s.withSweep x).sweep = x := rfl
@[simp] theorem withSweep_policy : (s.withSweep x).policy = s.policy := rfl
@[simp] theorem withSweep_envelope : (s.withSweep x).envelope = s.envelope := rfl
@[simp] theorem withSweep_notices : (s.withSweep x).notices = s.notices := rfl
end

/-! ### withPolicy -/

section
variable (x : PolicyStore)
@[simp] theorem withPolicy_pending : (s.withPolicy x).pending = s.pending := rfl
@[simp] theorem withPolicy_phase : (s.withPolicy x).phase = s.phase := rfl
@[simp] theorem withPolicy_mode : (s.withPolicy x).mode = s.mode := rfl
@[simp] theorem withPolicy_stopIn : (s.withPolicy x).stopIn = s.stopIn := rfl
@[simp] theorem withPolicy_clock : (s.withPolicy x).clock = s.clock := rfl
@[simp] theorem withPolicy_path : (s.withPolicy x).path = s.path := rfl
@[simp] theorem withPolicy_rim : (s.withPolicy x).rim = s.rim := rfl
@[simp] theorem withPolicy_cabins : (s.withPolicy x).cabins = s.cabins := rfl
@[simp] theorem withPolicy_board : (s.withPolicy x).board = s.board := rfl
@[simp] theorem withPolicy_wind : (s.withPolicy x).wind = s.wind := rfl
@[simp] theorem withPolicy_governor : (s.withPolicy x).governor = s.governor := rfl
@[simp] theorem withPolicy_sweep : (s.withPolicy x).sweep = s.sweep := rfl
@[simp] theorem withPolicy_policy : (s.withPolicy x).policy = x := rfl
@[simp] theorem withPolicy_envelope : (s.withPolicy x).envelope = s.envelope := rfl
@[simp] theorem withPolicy_notices : (s.withPolicy x).notices = s.notices := rfl
end

/-! ### withEnvelope -/

section
variable (x : Envelope)
@[simp] theorem withEnvelope_pending : (s.withEnvelope x).pending = s.pending := rfl
@[simp] theorem withEnvelope_phase : (s.withEnvelope x).phase = s.phase := rfl
@[simp] theorem withEnvelope_mode : (s.withEnvelope x).mode = s.mode := rfl
@[simp] theorem withEnvelope_stopIn : (s.withEnvelope x).stopIn = s.stopIn := rfl
@[simp] theorem withEnvelope_clock : (s.withEnvelope x).clock = s.clock := rfl
@[simp] theorem withEnvelope_path : (s.withEnvelope x).path = s.path := rfl
@[simp] theorem withEnvelope_rim : (s.withEnvelope x).rim = s.rim := rfl
@[simp] theorem withEnvelope_cabins : (s.withEnvelope x).cabins = s.cabins := rfl
@[simp] theorem withEnvelope_board : (s.withEnvelope x).board = s.board := rfl
@[simp] theorem withEnvelope_wind : (s.withEnvelope x).wind = s.wind := rfl
@[simp] theorem withEnvelope_governor : (s.withEnvelope x).governor = s.governor := rfl
@[simp] theorem withEnvelope_sweep : (s.withEnvelope x).sweep = s.sweep := rfl
@[simp] theorem withEnvelope_policy : (s.withEnvelope x).policy = s.policy := rfl
@[simp] theorem withEnvelope_envelope : (s.withEnvelope x).envelope = x := rfl
@[simp] theorem withEnvelope_notices : (s.withEnvelope x).notices = s.notices := rfl
end

/-! ### withNotices -/

section
variable (x : NoticeUnit)
@[simp] theorem withNotices_pending : (s.withNotices x).pending = s.pending := rfl
@[simp] theorem withNotices_phase : (s.withNotices x).phase = s.phase := rfl
@[simp] theorem withNotices_mode : (s.withNotices x).mode = s.mode := rfl
@[simp] theorem withNotices_stopIn : (s.withNotices x).stopIn = s.stopIn := rfl
@[simp] theorem withNotices_clock : (s.withNotices x).clock = s.clock := rfl
@[simp] theorem withNotices_path : (s.withNotices x).path = s.path := rfl
@[simp] theorem withNotices_rim : (s.withNotices x).rim = s.rim := rfl
@[simp] theorem withNotices_cabins : (s.withNotices x).cabins = s.cabins := rfl
@[simp] theorem withNotices_board : (s.withNotices x).board = s.board := rfl
@[simp] theorem withNotices_wind : (s.withNotices x).wind = s.wind := rfl
@[simp] theorem withNotices_governor : (s.withNotices x).governor = s.governor := rfl
@[simp] theorem withNotices_sweep : (s.withNotices x).sweep = s.sweep := rfl
@[simp] theorem withNotices_policy : (s.withNotices x).policy = s.policy := rfl
@[simp] theorem withNotices_envelope : (s.withNotices x).envelope = s.envelope := rfl
@[simp] theorem withNotices_notices : (s.withNotices x).notices = x := rfl
end

/-! ### withStopIn -/

section
variable (x : Bool)
@[simp] theorem withStopIn_pending : (s.withStopIn x).pending = s.pending := rfl
@[simp] theorem withStopIn_phase : (s.withStopIn x).phase = s.phase := rfl
@[simp] theorem withStopIn_mode : (s.withStopIn x).mode = s.mode := rfl
@[simp] theorem withStopIn_stopIn : (s.withStopIn x).stopIn = x := rfl
@[simp] theorem withStopIn_clock : (s.withStopIn x).clock = s.clock := rfl
@[simp] theorem withStopIn_path : (s.withStopIn x).path = s.path := rfl
@[simp] theorem withStopIn_rim : (s.withStopIn x).rim = s.rim := rfl
@[simp] theorem withStopIn_cabins : (s.withStopIn x).cabins = s.cabins := rfl
@[simp] theorem withStopIn_board : (s.withStopIn x).board = s.board := rfl
@[simp] theorem withStopIn_wind : (s.withStopIn x).wind = s.wind := rfl
@[simp] theorem withStopIn_governor : (s.withStopIn x).governor = s.governor := rfl
@[simp] theorem withStopIn_sweep : (s.withStopIn x).sweep = s.sweep := rfl
@[simp] theorem withStopIn_policy : (s.withStopIn x).policy = s.policy := rfl
@[simp] theorem withStopIn_envelope : (s.withStopIn x).envelope = s.envelope := rfl
@[simp] theorem withStopIn_notices : (s.withStopIn x).notices = s.notices := rfl
end

/-! ### withPhase -/

section
variable (x : Phase)
@[simp] theorem withPhase_pending : (s.withPhase x).pending = s.pending := rfl
@[simp] theorem withPhase_phase : (s.withPhase x).phase = x := rfl
@[simp] theorem withPhase_mode : (s.withPhase x).mode = s.mode := rfl
@[simp] theorem withPhase_stopIn : (s.withPhase x).stopIn = s.stopIn := rfl
@[simp] theorem withPhase_clock : (s.withPhase x).clock = s.clock := rfl
@[simp] theorem withPhase_path : (s.withPhase x).path = s.path := rfl
@[simp] theorem withPhase_rim : (s.withPhase x).rim = s.rim := rfl
@[simp] theorem withPhase_cabins : (s.withPhase x).cabins = s.cabins := rfl
@[simp] theorem withPhase_board : (s.withPhase x).board = s.board := rfl
@[simp] theorem withPhase_wind : (s.withPhase x).wind = s.wind := rfl
@[simp] theorem withPhase_governor : (s.withPhase x).governor = s.governor := rfl
@[simp] theorem withPhase_sweep : (s.withPhase x).sweep = s.sweep := rfl
@[simp] theorem withPhase_policy : (s.withPhase x).policy = s.policy := rfl
@[simp] theorem withPhase_envelope : (s.withPhase x).envelope = s.envelope := rfl
@[simp] theorem withPhase_notices : (s.withPhase x).notices = s.notices := rfl
end

/-! ### withDrive -/

section
variable (d : DriveIx) (x : Drive)
@[simp] theorem withDrive_pending : (s.withDrive d x).pending = s.pending := rfl
@[simp] theorem withDrive_phase : (s.withDrive d x).phase = s.phase := rfl
@[simp] theorem withDrive_mode : (s.withDrive d x).mode = s.mode := rfl
@[simp] theorem withDrive_stopIn : (s.withDrive d x).stopIn = s.stopIn := rfl
@[simp] theorem withDrive_clock : (s.withDrive d x).clock = s.clock := rfl
@[simp] theorem withDrive_path : (s.withDrive d x).path = s.path := rfl
@[simp] theorem withDrive_rim : (s.withDrive d x).rim = s.rim := rfl
@[simp] theorem withDrive_cabins : (s.withDrive d x).cabins = s.cabins := rfl
@[simp] theorem withDrive_board : (s.withDrive d x).board = s.board := rfl
@[simp] theorem withDrive_wind : (s.withDrive d x).wind = s.wind := rfl
@[simp] theorem withDrive_sweep : (s.withDrive d x).sweep = s.sweep := rfl
@[simp] theorem withDrive_policy : (s.withDrive d x).policy = s.policy := rfl
@[simp] theorem withDrive_envelope : (s.withDrive d x).envelope = s.envelope := rfl
@[simp] theorem withDrive_notices : (s.withDrive d x).notices = s.notices := rfl
end

/-! ### withChannel -/

section
variable (c : ChannelIx) (x : Channel)
@[simp] theorem withChannel_pending : (s.withChannel c x).pending = s.pending := rfl
@[simp] theorem withChannel_phase : (s.withChannel c x).phase = s.phase := rfl
@[simp] theorem withChannel_mode : (s.withChannel c x).mode = s.mode := rfl
@[simp] theorem withChannel_stopIn : (s.withChannel c x).stopIn = s.stopIn := rfl
@[simp] theorem withChannel_clock : (s.withChannel c x).clock = s.clock := rfl
@[simp] theorem withChannel_path : (s.withChannel c x).path = s.path := rfl
@[simp] theorem withChannel_rim : (s.withChannel c x).rim = s.rim := rfl
@[simp] theorem withChannel_cabins : (s.withChannel c x).cabins = s.cabins := rfl
@[simp] theorem withChannel_board : (s.withChannel c x).board = s.board := rfl
@[simp] theorem withChannel_governor : (s.withChannel c x).governor = s.governor := rfl
@[simp] theorem withChannel_sweep : (s.withChannel c x).sweep = s.sweep := rfl
@[simp] theorem withChannel_policy : (s.withChannel c x).policy = s.policy := rfl
@[simp] theorem withChannel_envelope : (s.withChannel c x).envelope = s.envelope := rfl
@[simp] theorem withChannel_notices : (s.withChannel c x).notices = s.notices := rfl
end

/-! ### withGrant -/

section
variable (berth : Berth) (x : Option Grant)
@[simp] theorem withGrant_pending : (s.withGrant berth x).pending = s.pending := rfl
@[simp] theorem withGrant_phase : (s.withGrant berth x).phase = s.phase := rfl
@[simp] theorem withGrant_mode : (s.withGrant berth x).mode = s.mode := rfl
@[simp] theorem withGrant_stopIn : (s.withGrant berth x).stopIn = s.stopIn := rfl
@[simp] theorem withGrant_clock : (s.withGrant berth x).clock = s.clock := rfl
@[simp] theorem withGrant_path : (s.withGrant berth x).path = s.path := rfl
@[simp] theorem withGrant_rim : (s.withGrant berth x).rim = s.rim := rfl
@[simp] theorem withGrant_cabins : (s.withGrant berth x).cabins = s.cabins := rfl
@[simp] theorem withGrant_wind : (s.withGrant berth x).wind = s.wind := rfl
@[simp] theorem withGrant_governor : (s.withGrant berth x).governor = s.governor := rfl
@[simp] theorem withGrant_sweep : (s.withGrant berth x).sweep = s.sweep := rfl
@[simp] theorem withGrant_policy : (s.withGrant berth x).policy = s.policy := rfl
@[simp] theorem withGrant_envelope : (s.withGrant berth x).envelope = s.envelope := rfl
@[simp] theorem withGrant_notices : (s.withGrant berth x).notices = s.notices := rfl
end

/-! ### withCabin -/

section
variable (c : Nat) (x : Cabin)
@[simp] theorem withCabin_pending : (s.withCabin c x).pending = s.pending := by unfold withCabin; split <;> rfl
@[simp] theorem withCabin_phase : (s.withCabin c x).phase = s.phase := by unfold withCabin; split <;> rfl
@[simp] theorem withCabin_mode : (s.withCabin c x).mode = s.mode := by unfold withCabin; split <;> rfl
@[simp] theorem withCabin_stopIn : (s.withCabin c x).stopIn = s.stopIn := by unfold withCabin; split <;> rfl
@[simp] theorem withCabin_clock : (s.withCabin c x).clock = s.clock := by unfold withCabin; split <;> rfl
@[simp] theorem withCabin_path : (s.withCabin c x).path = s.path := by unfold withCabin; split <;> rfl
@[simp] theorem withCabin_rim : (s.withCabin c x).rim = s.rim := by unfold withCabin; split <;> rfl
@[simp] theorem withCabin_board : (s.withCabin c x).board = s.board := by unfold withCabin; split <;> rfl
@[simp] theorem withCabin_wind : (s.withCabin c x).wind = s.wind := by unfold withCabin; split <;> rfl
@[simp] theorem withCabin_governor : (s.withCabin c x).governor = s.governor := by unfold withCabin; split <;> rfl
@[simp] theorem withCabin_sweep : (s.withCabin c x).sweep = s.sweep := by unfold withCabin; split <;> rfl
@[simp] theorem withCabin_policy : (s.withCabin c x).policy = s.policy := by unfold withCabin; split <;> rfl
@[simp] theorem withCabin_envelope : (s.withCabin c x).envelope = s.envelope := by unfold withCabin; split <;> rfl
@[simp] theorem withCabin_notices : (s.withCabin c x).notices = s.notices := by unfold withCabin; split <;> rfl
end

end Sys2Proof.Machine.State
end

