-- ==== Sys2Proof/Laws/Moves.lean ====
section
/-! SUPPORT. What an operation of the part can do, said once: a `Move` is a chain of small steps, each of which changes only the
listed parts of the state, and each of which touches the Frame Path and the Notice Unit only by their own operations. A quiet
move (`Move true`) also leaves alone everything the ceilings, the level and the grants depend on. -/

namespace Sys2Proof.Machine

/-! ## Frames -/

theorem State.same_refl (s : State) (b : Block) : s.same s b := by cases b <;> rfl

theorem State.same_trans {s t u : State} {b : Block} (h : s.same t b) (k : t.same u b) : s.same u b := by
  cases b <;> simp only [State.same] at * <;> rw [k, h]

theorem State.OnlyChanges.refl (s : State) (bs : List Block) : s.OnlyChanges s bs := fun b _ => s.same_refl b

theorem State.OnlyChanges.trans {s t u : State} {bs : List Block} (h : s.OnlyChanges t bs) (k : t.OnlyChanges u bs) :
    s.OnlyChanges u bs := fun b hb => State.same_trans (h b hb) (k b hb)

theorem State.OnlyChanges.mono {s t : State} {bs cs : List Block} (h : s.OnlyChanges t bs) (hc : bs ⊆ cs) :
    s.OnlyChanges t cs := fun b hb => h b fun hm => hb (hc hm)

/-! ## The inputs of the ceilings, the level and the grants -/

/-- What the ceilings, the level's floor and the grants depend on is the same in two states. -/
structure State.SameInputs (s t : State) : Prop where
  mode       : t.mode = s.mode
  phase      : t.phase = s.phase
  envelope   : t.envelope = s.envelope
  active     : t.active = s.active
  bank       : t.policy.active = s.policy.active
  staging    : t.policy.staging = s.policy.staging
  commitBank : t.policy.commitBank = s.policy.commitBank
  grants     : t.board.grants = s.board.grants
  doorStop   : t.board.doorStop = s.board.doorStop
  creep      : t.board.creep = s.board.creep
  creepValue : t.board.creepValue = s.board.creepValue
  doors      : ∀ c, (t.cabin c).door = (s.cabin c).door
  level      : t.wind.level = s.wind.level
  floor      : t.wind.floor = s.wind.floor
  known      : t.rim.known = s.rim.known
  ceilingF   : t.governor.ceilingF = s.governor.ceilingF
  ceilingV   : t.governor.ceilingV = s.governor.ceilingV
  latch      : t.governor.latch = s.governor.latch
  rimHold    : t.governor.rimHold = s.governor.rimHold

theorem State.SameInputs.refl (s : State) : s.SameInputs s :=
  ⟨rfl, rfl, rfl, rfl, rfl, rfl, rfl, rfl, rfl, rfl, rfl, fun _ => rfl, rfl, rfl, rfl, rfl, rfl, rfl, rfl⟩

theorem State.SameInputs.trans {s t u : State} (h : s.SameInputs t) (k : t.SameInputs u) : s.SameInputs u :=
  ⟨k.mode.trans h.mode, k.phase.trans h.phase, k.envelope.trans h.envelope, k.active.trans h.active, k.bank.trans h.bank,
    k.staging.trans h.staging, k.commitBank.trans h.commitBank, k.grants.trans h.grants, k.doorStop.trans h.doorStop,
    k.creep.trans h.creep, k.creepValue.trans h.creepValue, fun c => (k.doors c).trans (h.doors c), k.level.trans h.level,
    k.floor.trans h.floor, k.known.trans h.known, k.ceilingF.trans h.ceilingF, k.ceilingV.trans h.ceilingV,
    k.latch.trans h.latch, k.rimHold.trans h.rimHold⟩

/-- A cabin's record after one record is replaced. -/
theorem State.withCabin_cabin (s : State) (c d : Nat) (x : Cabin) :
    (s.withCabin c x).cabin d = if d = c ∧ 1 ≤ c ∧ c ≤ 64 then x else s.cabin d := by
  unfold State.withCabin State.cabin slot
  by_cases hd : d = 0
  · subst hd
    by_cases hc : c = 0 <;> simp [hc]; omega
  · by_cases hc : c = 0
    · simp [hc, hd]
    · simp only [hc, hd, if_false, State.withCabins_cabins]
      by_cases he : d = c
      · subst he
        by_cases hk : d ≤ 64
        · have : d - 1 < 64 := by omega
          have h1 : 1 ≤ d := by omega
          simp [this, h1, hk]
        · have h2 : ¬ d - 1 < 64 := by omega
          simp [hk, h2]
      · have h3 : c - 1 ≠ d - 1 := by omega
        rw [Vector.getElem?_setIfInBounds_ne h3]
        simp [he]

/-- A replaced record with the same door leaves every door as it was. -/
theorem State.withCabin_doors (s : State) (c : Nat) (x : Cabin) (h : x.door = (s.cabin c).door) (d : Nat) :
    ((s.withCabin c x).cabin d).door = (s.cabin d).door := by
  rw [s.withCabin_cabin]
  split
  · next k => rw [h, k.1]
  · rfl

theorem State.SameInputs.withCabin (s : State) (c : Nat) (x : Cabin) (h : x.door = (s.cabin c).door) :
    s.SameInputs (s.withCabin c x) := by
  constructor <;> first | exact s.withCabin_doors c x h | simp [State.active, State.bank]

/-! ## Moves -/

/-- A chain of small steps from one state to another, within the listed parts; `q` says that the steps are quiet. -/
inductive Move (q : Bool) (bs : List Block) : State → State → Prop
  | keep {s t : State} (h : s.OnlyChanges t bs) (hp : t.path = s.path) (hn : t.notices = s.notices)
      (hi : q = true → s.SameInputs t) : Move q bs s t
  | post (s : State) (kind : NoticeKind) (monitor : Bool) (subject d0 d1 d2 d3 : Byte) (h : [Block.notices] ⊆ bs) :
      Move q bs s (s.post kind monitor subject d0 d1 d2 d3)
  | offer (s : State) (p : Port) (f : Frame) (h : [Block.path, .notices] ⊆ bs) : Move q bs s (s.offerForward p f)
  | originate (s : State) (key : OriginKey) (dest cls : Byte) (payload : List Byte) (h : [Block.path] ⊆ bs) :
      Move q bs s (s.originate key dest cls payload)
  | staging (s : State) (p : Port) (x : Staging) (h : [Block.path] ⊆ bs) :
      Move q bs s (s.withPath (s.path.setStaging p x))
  | advance (s : State) (ms : Nat) (h : [Block.clock, .rim, .governor, .policy, .notices] ⊆ bs) :
      Move q bs s (s.advance ms)
  | drain (s : State) (h : [Block.notices] ⊆ bs) : Move q bs s (s.withNotices s.notices.drain)
  | resume (s : State) (h : [Block.notices] ⊆ bs) :
      Move q bs s (s.withNotices { s.notices with freeze := .flowing, lost := 0, firstLost := none })
  | restart (s : State) (h : [Block.path, .notices] ⊆ bs) :
      Move q bs s ((s.withPath s.path.restarted).withNotices NoticeUnit.restarted)
  | endRestart (s : State) (h : [Block.notices] ⊆ bs) : Move q bs s s.endRestart
  | trans {s t u : State} (h : Move q bs s t) (k : Move q bs t u) : Move q bs s u

namespace Move

theorem refl (q : Bool) (bs : List Block) (s : State) : Move q bs s s :=
  .keep (.refl s bs) rfl rfl fun _ => .refl s

theorem mono {q : Bool} {bs cs : List Block} {s t : State} (h : Move q bs s t) (hc : bs ⊆ cs) : Move q cs s t := by
  induction h with
  | keep h hp hn hi => exact .keep (h.mono hc) hp hn hi
  | post s k m b d0 d1 d2 d3 h => exact .post s k m b d0 d1 d2 d3 fun _ m => hc (h m)
  | offer s p f h => exact .offer s p f fun _ m => hc (h m)
  | originate s k d c p h => exact .originate s k d c p fun _ m => hc (h m)
  | staging s p x h => exact .staging s p x fun _ m => hc (h m)
  | advance s ms h => exact .advance s ms fun _ m => hc (h m)
  | drain s h => exact .drain s fun _ m => hc (h m)
  | resume s h => exact .resume s fun _ m => hc (h m)
  | restart s h => exact .restart s fun _ m => hc (h m)
  | endRestart s h => exact .endRestart s fun _ m => hc (h m)
  | trans _ _ ih ik => exact .trans ih ik

theorem loud {bs : List Block} {s t : State} {q : Bool} (h : Move q bs s t) : Move false bs s t := by
  induction h with
  | keep h hp hn _ => exact .keep h hp hn (by simp)
  | post s k m b d0 d1 d2 d3 h => exact .post s k m b d0 d1 d2 d3 h
  | offer s p f h => exact .offer s p f h
  | originate s k d c p h => exact .originate s k d c p h
  | staging s p x h => exact .staging s p x h
  | advance s ms h => exact .advance s ms h
  | drain s h => exact .drain s h
  | resume s h => exact .resume s h
  | restart s h => exact .restart s h
  | endRestart s h => exact .endRestart s h
  | trans _ _ ih ik => exact .trans ih ik

/-- A quiet move within other parts serves wherever a move is asked for. -/
theorem up {bs cs : List Block} {s t : State} {q : Bool} (h : Move true bs s t) (hc : bs ⊆ cs) : Move q cs s t := by
  cases q with
  | true => exact h.mono hc
  | false => exact h.loud.mono hc

/-- A move folded along a list. -/
theorem foldl {α : Type} {q : Bool} {bs : List Block} {f : State → α → State} (h : ∀ s a, Move q bs s (f s a)) (l : List α)
    (s : State) : Move q bs s (l.foldl f s) := by
  induction l generalizing s with
  | nil => exact .refl q bs s
  | cons a l ih => exact .trans (h s a) (ih (f s a))

end Move

/-! ## The primitive operations change only their own parts -/

theorem State.deliver_frame (s : State) (n : Notice) : s.OnlyChanges (s.deliver n) [.notices] := by
  intro b hb
  unfold State.deliver
  cases b <;> first | (exfalso; exact hb (by decide)) | (split <;> rfl)

theorem State.post_frame (s : State) (k : NoticeKind) (m : Bool) (b d0 d1 d2 d3 : Byte) :
    s.OnlyChanges (s.post k m b d0 d1 d2 d3) [.notices] := s.deliver_frame _

theorem State.offerForward_frame (s : State) (p : Port) (f : Frame) :
    s.OnlyChanges (s.offerForward p f) [.path, .notices] := by
  unfold State.offerForward
  cases p <;> dsimp only <;> split
  all_goals first
    | exact (s.post_frame _ _ _ _ _ _ _).mono (by decide)
    | (intro b hb; cases b <;> first | (exfalso; exact hb (by decide)) | rfl)

theorem State.advance_frame (s : State) (ms : Nat) :
    s.OnlyChanges (s.advance ms) [.clock, .rim, .governor, .policy, .notices] := by
  intro b hb
  cases b <;> first | (exfalso; exact hb (by decide)) | rfl

/-- A move changes nothing outside its parts. -/
theorem Move.onlyChanges {q : Bool} {bs : List Block} {s t : State} (h : Move q bs s t) : s.OnlyChanges t bs := by
  induction h with
  | keep h _ _ _ => exact h
  | post s k m b d0 d1 d2 d3 h => exact (s.post_frame k m b d0 d1 d2 d3).mono h
  | offer s p f h => exact (s.offerForward_frame p f).mono h
  | originate s k d c p h =>
      exact State.OnlyChanges.mono (fun b hb => by cases b <;> first | (exfalso; exact hb (by decide)) | rfl) h
  | staging s p x h =>
      exact State.OnlyChanges.mono (fun b hb => by cases b <;> first | (exfalso; exact hb (by decide)) | rfl) h
  | advance s ms h => exact (s.advance_frame ms).mono h
  | drain s h => exact State.OnlyChanges.mono (fun b hb => by cases b <;> first | (exfalso; exact hb (by decide)) | rfl) h
  | resume s h => exact State.OnlyChanges.mono (fun b hb => by cases b <;> first | (exfalso; exact hb (by decide)) | rfl) h
  | restart s h => exact State.OnlyChanges.mono (fun b hb => by cases b <;> first | (exfalso; exact hb (by decide)) | rfl) h
  | endRestart s h =>
      exact State.OnlyChanges.mono (fun b hb => by cases b <;> first | (exfalso; exact hb (by decide)) | rfl) h
  | trans _ _ ih ik => exact ih.trans ik

/-- The blocks on which the ceilings, the level and the grants do not depend. -/
def quietBlocks : List Block := [.pending, .stopIn, .clock, .path, .sweep, .notices]

theorem State.SameInputs.of_frame {s t : State} (h : s.OnlyChanges t quietBlocks) : s.SameInputs t := by
  have hm := h .mode (by decide); have hp := h .phase (by decide); have he := h .envelope (by decide)
  have hl := h .policy (by decide); have hb := h .board (by decide); have hc := h .cabins (by decide)
  have hw := h .wind (by decide); have hr := h .rim (by decide); have hg := h .governor (by decide)
  simp only [State.same] at *
  constructor <;> simp only [State.active, State.bank, State.cabin, hm, hp, he, hl, hb, hc, hw, hr, hg, implies_true]

/-- A quiet move keeps every input of the ceilings, the level and the grants. -/
theorem Move.inputs {bs : List Block} {s t : State} (h : Move true bs s t) : s.SameInputs t := by
  induction h with
  | keep _ _ _ hi => exact hi rfl
  | post s k m b d0 d1 d2 d3 h => exact .of_frame ((s.post_frame k m b d0 d1 d2 d3).mono (by decide))
  | offer s p f h => exact .of_frame ((s.offerForward_frame p f).mono (by decide))
  | originate s k d c p h => exact ⟨rfl, rfl, rfl, rfl, rfl, rfl, rfl, rfl, rfl, rfl, rfl, fun _ => rfl, rfl, rfl, rfl, rfl, rfl, rfl, rfl⟩
  | staging s p x h => exact ⟨rfl, rfl, rfl, rfl, rfl, rfl, rfl, rfl, rfl, rfl, rfl, fun _ => rfl, rfl, rfl, rfl, rfl, rfl, rfl, rfl⟩
  | advance s ms h => exact ⟨rfl, rfl, rfl, rfl, rfl, rfl, rfl, rfl, rfl, rfl, rfl, fun _ => rfl, rfl, rfl, rfl, rfl, rfl, rfl, rfl⟩
  | drain s h => exact ⟨rfl, rfl, rfl, rfl, rfl, rfl, rfl, rfl, rfl, rfl, rfl, fun _ => rfl, rfl, rfl, rfl, rfl, rfl, rfl, rfl⟩
  | resume s h => exact ⟨rfl, rfl, rfl, rfl, rfl, rfl, rfl, rfl, rfl, rfl, rfl, fun _ => rfl, rfl, rfl, rfl, rfl, rfl, rfl, rfl⟩
  | restart s h => exact ⟨rfl, rfl, rfl, rfl, rfl, rfl, rfl, rfl, rfl, rfl, rfl, fun _ => rfl, rfl, rfl, rfl, rfl, rfl, rfl, rfl⟩
  | endRestart s h => exact ⟨rfl, rfl, rfl, rfl, rfl, rfl, rfl, rfl, rfl, rfl, rfl, fun _ => rfl, rfl, rfl, rfl, rfl, rfl, rfl, rfl⟩
  | trans _ _ ih ik => exact ih.trans ik

end Sys2Proof.Machine
end

