-- ==== Sys2Proof/Laws/Quiet.lean ====
section
/-! SUPPORT. The quiet operations: what each block does without touching the inputs of the ceilings, the level or the grants, one
lemma for each. -/

namespace Sys2Proof.Machine

namespace Move

variable {q : Bool} {bs : List Block} (s : State)

/-- A choice between two moves. -/
theorem ite {s t u : State} {p : Prop} [Decidable p] (h : Move q bs s t) (k : Move q bs s u) :
    Move q bs s (if p then t else u) := by
  split
  · exact h
  · exact k

/-! ## Replacing a block -/

theorem withClock (x : ClockUnit) (h : [Block.clock] ⊆ bs) : Move q bs s (s.withClock x) :=
  have f : s.OnlyChanges (s.withClock x) [.clock] := fun b hb => by
    cases b <;> first | (exfalso; exact hb (by decide)) | rfl
  .keep (f.mono h) rfl rfl fun _ => .of_frame (f.mono (by decide))

theorem withSweep (x : SweepScheduler) (h : [Block.sweep] ⊆ bs) : Move q bs s (s.withSweep x) :=
  have f : s.OnlyChanges (s.withSweep x) [.sweep] := fun b hb => by
    cases b <;> first | (exfalso; exact hb (by decide)) | rfl
  .keep (f.mono h) rfl rfl fun _ => .of_frame (f.mono (by decide))

theorem withCabin (c : Nat) (x : Cabin) (h : [Block.cabins] ⊆ bs) (hd : q = true → x.door = (s.cabin c).door) :
    Move q bs s (s.withCabin c x) :=
  have f : s.OnlyChanges (s.withCabin c x) [.cabins] := fun b hb => by
    cases b <;> first | (exfalso; exact hb (by decide)) | simp [State.same]
  .keep (f.mono h) (by simp) (by simp) fun hq => .withCabin s c x (hd hq)

theorem withCabins (x : Vector Cabin 64) (h : [Block.cabins] ⊆ bs)
    (hd : q = true → ∀ c, ((s.withCabins x).cabin c).door = (s.cabin c).door) : Move q bs s (s.withCabins x) :=
  have f : s.OnlyChanges (s.withCabins x) [.cabins] := fun b hb => by
    cases b <;> first | (exfalso; exact hb (by decide)) | rfl
  .keep (f.mono h) rfl rfl fun hq =>
    ⟨rfl, rfl, rfl, rfl, rfl, rfl, rfl, rfl, rfl, rfl, rfl, hd hq, rfl, rfl, rfl, rfl, rfl, rfl, rfl⟩

theorem withRim (x : RimTracker) (h : [Block.rim] ⊆ bs) (hk : q = true → x.known = s.rim.known) :
    Move q bs s (s.withRim x) :=
  have f : s.OnlyChanges (s.withRim x) [.rim] := fun b hb => by
    cases b <;> first | (exfalso; exact hb (by decide)) | rfl
  .keep (f.mono h) rfl rfl fun hq =>
    ⟨rfl, rfl, rfl, rfl, rfl, rfl, rfl, rfl, rfl, rfl, rfl, fun _ => rfl, rfl, rfl, hk hq, rfl, rfl, rfl, rfl⟩

theorem withBoard (x : BoardingScreen) (h : [Block.board] ⊆ bs)
    (hk : q = true → x.grants = s.board.grants ∧ x.doorStop = s.board.doorStop ∧ x.creep = s.board.creep ∧
      x.creepValue = s.board.creepValue) : Move q bs s (s.withBoard x) :=
  have f : s.OnlyChanges (s.withBoard x) [.board] := fun b hb => by
    cases b <;> first | (exfalso; exact hb (by decide)) | rfl
  .keep (f.mono h) rfl rfl fun hq =>
    ⟨rfl, rfl, rfl, rfl, rfl, rfl, rfl, (hk hq).1, (hk hq).2.1, (hk hq).2.2.1, (hk hq).2.2.2, fun _ => rfl, rfl, rfl, rfl,
      rfl, rfl, rfl, rfl⟩

theorem withWind (x : WindAssessor) (h : [Block.wind] ⊆ bs)
    (hk : q = true → x.level = s.wind.level ∧ x.floor = s.wind.floor) : Move q bs s (s.withWind x) :=
  have f : s.OnlyChanges (s.withWind x) [.wind] := fun b hb => by
    cases b <;> first | (exfalso; exact hb (by decide)) | rfl
  .keep (f.mono h) rfl rfl fun hq =>
    ⟨rfl, rfl, rfl, rfl, rfl, rfl, rfl, rfl, rfl, rfl, rfl, fun _ => rfl, (hk hq).1, (hk hq).2, rfl, rfl, rfl, rfl, rfl⟩

theorem withGovernor (x : Governor) (h : [Block.governor] ⊆ bs)
    (hk : q = true → x.ceilingF = s.governor.ceilingF ∧ x.ceilingV = s.governor.ceilingV ∧ x.latch = s.governor.latch ∧
      x.rimHold = s.governor.rimHold) : Move q bs s (s.withGovernor x) :=
  have f : s.OnlyChanges (s.withGovernor x) [.governor] := fun b hb => by
    cases b <;> first | (exfalso; exact hb (by decide)) | rfl
  .keep (f.mono h) rfl rfl fun hq =>
    ⟨rfl, rfl, rfl, rfl, rfl, rfl, rfl, rfl, rfl, rfl, rfl, fun _ => rfl, rfl, rfl, rfl, (hk hq).1, (hk hq).2.1,
      (hk hq).2.2.1, (hk hq).2.2.2⟩

theorem withPolicy (x : PolicyStore) (h : [Block.policy] ⊆ bs)
    (hk : q = true → x.active = s.policy.active ∧ x.staging = s.policy.staging ∧ x.commitBank = s.policy.commitBank ∧
      (s.withPolicy x).active = s.active) : Move q bs s (s.withPolicy x) :=
  have f : s.OnlyChanges (s.withPolicy x) [.policy] := fun b hb => by
    cases b <;> first | (exfalso; exact hb (by decide)) | rfl
  .keep (f.mono h) rfl rfl fun hq =>
    ⟨rfl, rfl, rfl, (hk hq).2.2.2, (hk hq).1, (hk hq).2.1, (hk hq).2.2.1, rfl, rfl, rfl, rfl, fun _ => rfl, rfl, rfl, rfl,
      rfl, rfl, rfl, rfl⟩

theorem withEnvelope (x : Envelope) (h : [Block.envelope] ⊆ bs) : Move false bs s (s.withEnvelope x) :=
  have f : s.OnlyChanges (s.withEnvelope x) [.envelope] := fun b hb => by
    cases b <;> first | (exfalso; exact hb (by decide)) | rfl
  .keep (f.mono h) rfl rfl (by simp)

theorem withDrive (d : DriveIx) (x : Drive) (h : [Block.governor] ⊆ bs) : Move q bs s (s.withDrive d x) :=
  .withGovernor s _ h fun _ => ⟨rfl, rfl, rfl, rfl⟩

theorem withChannel (c : ChannelIx) (x : Channel) (h : [Block.wind] ⊆ bs) : Move q bs s (s.withChannel c x) :=
  .withWind s _ h fun _ => ⟨rfl, rfl⟩

/-! ## The Frame Path -/

theorem originateOrder (key : OriginKey) (role : Role) (cls : Byte) (payload : List Byte) (h : [Block.path] ⊆ bs) :
    Move q bs s (s.originateOrder key role cls payload) := by
  unfold State.originateOrder
  split
  · exact .refl ..
  · split
    · exact .refl ..
    · exact .originate _ _ _ _ _ h

/-! ## The Speed Governor -/

theorem resumeDrive (d : DriveIx) : Move q [.governor, .notices] s (s.resumeDrive d) := by
  unfold State.resumeDrive
  dsimp only
  split
  · exact .trans (.withDrive _ _ _ (by decide)) (.post _ _ _ _ _ _ _ _ (by decide))
  · exact .withDrive _ _ _ (by decide)

theorem screenSpeed (d : DriveIx) (r : Int) (brake : Byte) (f : Frame) :
    Move q [.governor, .path, .notices] s (s.screenSpeed d r brake f) := by
  unfold State.screenSpeed
  dsimp only
  have h : ∀ x, Move q [.governor, .path, .notices] s ((s.resumeDrive d).withDrive d x) := fun x =>
    .trans ((resumeDrive s d).mono (by decide)) (.withDrive _ _ _ (by decide))
  split
  · exact .trans (h _) (.offer _ _ _ (by decide))
  · exact .trans (h _) (.trans (.post _ _ _ _ _ _ _ _ (by decide)) (.offer _ _ _ (by decide)))

theorem noteUnscreened (d : DriveIx) (r : Int) : Move q [.governor] s (s.noteUnscreened d r) :=
  .withDrive _ _ _ (by decide)

theorem substituteStep (d : DriveIx) : Move q [.governor, .path, .notices] s (s.substituteStep d) := by
  unfold State.substituteStep
  split
  · dsimp only
    have h : ∀ x k r c p y, Move q [.governor, .path, .notices] s
        (((s.withDrive d x).originateOrder k r c p).withDrive d y) := fun x k r c p y =>
      .trans (.withDrive _ _ _ (by decide)) (.trans (.originateOrder _ _ _ _ _ (by decide)) (.withDrive _ _ _ (by decide)))
    split
    · exact .trans (h ..) (.trans (.withDrive _ _ _ (by decide)) (.post _ _ _ _ _ _ _ _ (by decide)))
    · exact h ..
  · exact .refl ..

theorem substituteAll : Move q [.governor, .path, .notices] s s.substituteAll := .foldl substituteStep _ _

theorem staleExpiry (d : DriveIx) : Move q [.clock, .rim, .governor, .policy, .notices] s (s.staleExpiry d) := by
  unfold State.staleExpiry
  split
  · exact .refl ..
  · next ms _ =>
    dsimp only
    have h : ∀ x, Move q [.clock, .rim, .governor, .policy, .notices] s ((s.advance ms).withDrive d x) := fun x =>
      .trans (.advance _ _ (by decide)) (.withDrive _ _ _ (by decide))
    split
    · exact .trans (h _) (.trans (.withDrive _ _ _ (by decide)) (.post _ _ _ _ _ _ _ _ (by decide)))
    · exact h _

/-! ## Beacons -/

theorem refreshBeacon (b : Berth) : Move q [.wind, .path] s (s.refreshBeacon b) := by
  unfold State.refreshBeacon
  split
  · exact .withWind _ _ (by decide) fun _ => ⟨rfl, rfl⟩
  · split
    · exact .refl ..
    · exact .trans (.originate _ _ _ _ _ (by decide)) (.withWind _ _ (by decide) fun _ => ⟨rfl, rfl⟩)

theorem refreshBeacons : Move q [.wind, .path] s s.refreshBeacons := .trans (refreshBeacon s .a) (refreshBeacon _ .b)

theorem resendBeacons : Move q [.wind, .path] s s.resendBeacons := by
  refine .trans (?_ : Move q _ s (s.withWind { s.wind with sent := { a := none, b := none } })) (refreshBeacons _)
  exact .withWind _ _ (by decide) fun _ => ⟨rfl, rfl⟩

/-! ## The Sweep Scheduler -/

theorem finishSweep (w : State) (src : SweepSource) : Move q [.sweep, .notices] s (s.finishSweep w src) := by
  unfold State.finishSweep
  dsimp only
  split
  · exact .trans (.withSweep _ _ (by decide)) (.post _ _ _ _ _ _ _ _ (by decide))
  · exact .withSweep _ _ (by decide)

theorem appendCabin (c : Nat) : Move q [.sweep, .cabins] s (s.appendCabin c) :=
  .trans (.withSweep _ _ (by decide)) (.withCabin _ _ _ (by decide) fun _ => rfl)

theorem removeCabin (c : Nat) : Move q [.sweep, .cabins] s (s.removeCabin c) :=
  .trans (.withSweep _ _ (by decide)) (.withCabin _ _ _ (by decide) fun _ => rfl)

theorem appendQualifying : Move q [.sweep, .cabins] s s.appendQualifying := .foldl appendCabin _ _

theorem zeroPasses (c : Nat) : Move q [.sweep, .cabins] s (s.zeroPasses c) := by
  unfold State.zeroPasses
  exact .withCabin _ _ _ (by decide) fun _ => rfl

theorem buildList : Move q [.sweep, .cabins] s s.buildList := .trans (appendQualifying s) (.foldl zeroPasses _ _)

theorem clearList : Move q [.sweep, .cabins] s s.clearList := by
  refine .trans (.withSweep _ _ (by decide)) (.withCabins _ _ (by decide) fun _ c => ?_)
  unfold State.cabin slot
  by_cases hc : c = 0
  · simp [hc]
  · by_cases hk : c - 1 < 64 <;> simp [hc, hk]

theorem addCause (c : Cause) : Move q [.sweep, .cabins] s (s.addCause c) := by
  unfold State.addCause
  split
  · exact .refl ..
  · dsimp only
    split
    · exact .trans (.withSweep _ _ (by decide)) (buildList _)
    · exact .trans (.withSweep _ _ (by decide)) (appendQualifying _)

theorem removeCause (c : Cause) : Move q [.sweep, .cabins] s (s.removeCause c) := by
  unfold State.removeCause
  split
  · dsimp only
    split
    · exact .withSweep _ _ (by decide)
    · exact .trans (.withSweep _ _ (by decide)) (clearList _)
  · exact .refl ..

theorem reportClose (w : SweepScheduler) : Move q [.wind, .path] s (s.reportClose w) := by
  unfold State.reportClose
  split
  · exact .refl ..
  · exact refreshBeacons s

theorem sweepAdd (c : Cause) (src : SweepSource) :
    Move q [.sweep, .cabins, .wind, .path, .notices] s (s.sweepAdd c src) := by
  unfold State.sweepAdd
  split
  · exact .refl ..
  · exact .trans ((addCause s c).mono (by decide))
      (.trans ((finishSweep _ _ _).mono (by decide)) ((reportClose _ _).mono (by decide)))

theorem sweepRemove (c : Cause) (src : SweepSource) :
    Move q [.sweep, .cabins, .wind, .path, .notices] s (s.sweepRemove c src) := by
  unfold State.sweepRemove
  split
  · exact .trans ((removeCause s c).mono (by decide))
      (.trans ((finishSweep _ _ _).mono (by decide)) ((reportClose _ _).mono (by decide)))
  · exact .refl ..

theorem sweepLevel : Move q [.sweep, .cabins, .notices] s s.sweepLevel := by
  unfold State.sweepLevel
  split
  · exact .trans ((addCause s _).mono (by decide)) ((finishSweep _ _ _).mono (by decide))
  · exact .trans ((removeCause s _).mono (by decide)) ((finishSweep _ _ _).mono (by decide))

theorem setServed (c : Nat) (v : Bool) : Move q [.sweep] s (s.setServed c v) := by
  unfold State.setServed
  split
  · exact .refl ..
  · exact .withSweep _ _ (by decide)

theorem sweepCycle (c : Nat) : Move q [.sweep, .cabins, .notices] s (s.sweepCycle c) := by
  unfold State.sweepCycle
  dsimp only
  split
  · exact (setServed s c true).mono (by decide)
  · refine .trans ?_ ((finishSweep _ _ _).mono (by decide))
    split
    · split
      · exact (setServed s c true).mono (by decide)
      · exact (removeCabin s c).mono (by decide)
    · split
      · exact .trans ((appendCabin s c).mono (by decide)) ((setServed _ c true).mono (by decide))
      · exact (setServed s c true).mono (by decide)

theorem toTail (c : Nat) : Move q [.sweep] s (s.toTail c) := .withSweep _ _ (by decide)

theorem sweepPass (c : Nat) (b : Berth) : Move q [.sweep, .cabins, .notices] s (s.sweepPass c b) := by
  have h : ∀ (n : Nat) (m : Option SweepMark), Move q [.sweep, .cabins, .notices] s
      ((s.toTail c).withCabin c { (s.toTail c).cabin c with passes := n, mark := m }) := fun n m =>
    .trans ((toTail s c).mono (by decide)) (.withCabin _ _ _ (by decide) fun _ => rfl)
  unfold State.sweepPass
  dsimp only
  split
  · exact h _ _
  · split
    · exact .trans (h _ _) (.post _ _ _ _ _ _ _ _ (by decide))
    · exact h _ _

theorem sweepExit (c : Nat) (b : Berth) : Move q [.sweep, .cabins, .notices] s (s.sweepExit c b) := by
  unfold State.sweepExit
  dsimp only
  split
  · exact .refl ..
  · refine .trans ?_ ((finishSweep _ _ _).mono (by decide))
    split
    · split
      · exact (toTail s c).mono (by decide)
      · exact sweepPass s c b
    · exact (removeCabin s c).mono (by decide)

theorem sweepOccupancy (c : Nat) : Move q [.sweep, .cabins, .notices] s (s.sweepOccupancy c) := by
  unfold State.sweepOccupancy
  dsimp only
  split
  · split
    · exact .trans ((removeCabin s c).mono (by decide)) ((finishSweep _ _ _).mono (by decide))
    · exact .refl ..
  · split
    · exact .trans ((appendCabin s c).mono (by decide)) ((finishSweep _ _ _).mono (by decide))
    · exact .refl ..

theorem sweepService (c : Nat) : Move q [.sweep, .cabins, .notices] s (s.sweepService c) := by
  unfold State.sweepService
  split
  · exact .trans ((removeCabin s c).mono (by decide)) ((finishSweep _ _ _).mono (by decide))
  · exact .refl ..

/-! ## The Wind Assessor -/

theorem setChannel (c : ChannelIx) (x : Channel) : Move q [.wind, .notices] s (s.setChannel c x) := by
  unfold State.setChannel
  dsimp only
  split
  · exact .withChannel _ _ _ (by decide)
  · exact .trans (.withChannel _ _ _ (by decide)) (.post _ _ _ _ _ _ _ _ (by decide))

theorem recomputeWind : Move q [.wind] s s.recomputeWind := .withWind _ _ (by decide) fun _ => ⟨rfl, rfl⟩

theorem takeSample (c : ChannelIx) (v d : Nat) : Move q [.wind, .notices] s (s.takeSample c v d) := by
  unfold State.takeSample
  dsimp only
  split
  · exact .refl ..
  · have h : ∀ x y, Move q [.wind, .notices] s ((s.setChannel c x).withChannel c y) := fun x y =>
      .trans (setChannel s c x) (.withChannel _ _ _ (by decide))
    split
    · exact .trans (h _ _) ((recomputeWind _).mono (by decide))
    · exact h _ _

theorem tickChannel (c : ChannelIx) : Move q [.wind, .notices] s (s.tickChannel c) := setChannel s c _

theorem reassignChannel (c : ChannelIx) : Move q [.wind, .notices] s (s.reassignChannel c) := setChannel s c _

theorem trimCountdown : Move q [.wind] s s.trimCountdown := .withWind _ _ (by decide) fun _ => ⟨rfl, rfl⟩

/-! ## The Cabin Register and the Boarding Screen -/

theorem refuseOrder (r : Reason) (f : Frame) : Move q [.path, .notices] s (s.refuseOrder r f) := by
  unfold State.refuseOrder
  split
  · exact .trans (.post _ _ _ _ _ _ _ _ (by decide)) (.offer _ _ _ (by decide))
  · exact .post _ _ _ _ _ _ _ _ (by decide)

theorem registerCycle (c : Nat) (k : GrantKind) : Move q [.cabins, .notices] s (s.registerCycle c k) := by
  unfold State.registerCycle
  refine .trans ?_ (.post _ _ _ _ _ _ _ _ (by decide))
  split
  · exact .withCabin _ _ _ (by decide) fun _ => rfl
  · exact .refl ..

theorem counted_door (k : Cabin) (x y : Nat) : (k.counted x y).door = k.door := by
  unfold Cabin.counted
  dsimp only
  split_ifs <;> rfl

theorem postCabin (c : Nat) (e : CabinCause) (h : [Block.notices] ⊆ bs) : Move q bs s (s.postCabin c e) :=
  .post _ _ _ _ _ _ _ _ h

theorem closeEntry (b : Berth) (h : [Block.path] ⊆ bs) : Move q bs s (s.closeEntry b) := .originateOrder _ _ _ _ _ h

theorem takeCount (b : Berth) (c x y : Nat) (f : Frame) :
    Move q [.cabins, .path, .notices] s (s.takeCount b c x y f) := by
  unfold State.takeCount
  dsimp only
  have h1 : Move q [.cabins, .path, .notices] s (s.withCabin c ((s.cabin c).counted x y)) :=
    .withCabin _ _ _ (by decide) fun _ => counted_door _ _ _
  have h2 := fun (p : Prop) (d : Decidable p) => ite (p := p) h1
    (.trans h1 (postCabin _ c .count (by decide)))
  exact .ite (.ite (.trans (h2 _ _) (closeEntry _ _ (by decide))) (h2 _ _))
    (.trans (h2 _ _) (.post _ _ _ _ _ _ _ _ (by decide)))

theorem setService (c : Nat) (v : Bool) : Move q [.sweep, .cabins, .notices] s (s.setService c v) := by
  unfold State.setService
  split
  · exact .refl ..
  · refine .trans (.trans ?_ (.post _ _ _ _ _ _ _ _ ?_)) (sweepService _ _)
    · exact .withCabin _ _ _ (by decide) fun _ => rfl
    · decide

theorem setOccupancy (c n : Nat) : Move q [.sweep, .cabins, .notices] s (s.setOccupancy c n) := by
  unfold State.setOccupancy
  dsimp only
  refine .trans ?_ (sweepOccupancy _ _)
  have h : Move q [.sweep, .cabins, .notices] s (s.withCabin c
      { s.cabin c with occupancy := n, uncertain := false, assist := if n = 0 then false else (s.cabin c).assist }) :=
    .withCabin _ _ _ (by decide) fun _ => rfl
  exact .ite h (.trans h (.post _ _ _ _ _ _ _ _ (by decide)))

theorem takeGates (b : Berth) (x y : GateState) : Move q [.board] s (s.takeGates b x y) :=
  .withBoard _ _ (by decide) fun _ => ⟨rfl, rfl, rfl, rfl⟩

theorem screenGate (b : Berth) (x c : Bool) (f : Frame) : Move q [.path, .notices] s (s.screenGate b x c f) := by
  unfold State.screenGate
  split
  · exact .offer _ _ _ (by decide)
  · split
    · exact .offer _ _ _ (by decide)
    · exact refuseOrder ..

/-! ## The Rim Tracker -/

theorem stampExit (c : Nat) : Move q [.cabins] s (s.stampExit c) := .withCabin _ _ _ (by decide) fun _ => rfl

theorem rimBankChange : Move q [.rim] s s.rimBankChange := .withRim _ _ (by decide) fun _ => rfl

/-! ## The Clock Unit and the timers -/

theorem clockTick : Move q [.clock, .sweep, .cabins, .wind, .path, .notices] s s.clockTick := by
  unfold State.clockTick
  dsimp only
  split
  · exact .trans (.withClock _ _ (by decide))
      (.trans (.post _ _ _ _ _ _ _ _ (by decide)) ((sweepAdd _ _ _).mono (by decide)))
  · exact .withClock _ _ (by decide)

theorem quarter : Move q [.clock, .rim, .governor, .policy, .path, .notices] s s.quarter :=
  .trans (.trans (.advance _ _ (by decide)) (.withClock _ _ (by decide))) ((substituteAll _).mono (by decide))

theorem flushExpiry : Move q [.clock, .rim, .governor, .policy, .notices] s s.flushExpiry := by
  unfold State.flushExpiry
  split
  · exact .refl ..
  · exact .trans (.advance _ _ (by decide)) (.drain _ (by decide))

/-! ## The Frame Sorter -/

theorem noteMonitorSpeed (f : Frame) : Move q [.governor] s (s.noteMonitorSpeed f) := by
  unfold State.noteMonitorSpeed
  split
  · split
    · exact noteUnscreened ..
    · exact .refl ..
  · exact .refl ..

theorem refuseUnscreened (r : Reason) (f : Frame) : Move q [.governor, .path, .notices] s (s.refuseUnscreened r f) :=
  .trans ((noteMonitorSpeed s f).mono (by decide)) ((refuseOrder _ _ _).mono (by decide))

end Move

end Sys2Proof.Machine
end

