-- ==== Sys2Proof/Laws/Events.lean ====
section
/-! SUPPORT. The other operations, which change the inputs of the ceilings, the level or the grants: the parts each may change,
up to the body of every event. -/

namespace Sys2Proof.Machine

/-- The parts an event that closes at a part at work may change. -/
def eventBlocks : List Block :=
  [.clock, .path, .rim, .cabins, .board, .wind, .governor, .sweep, .policy, .envelope, .notices]

/-- The parts a level change may change. -/
def levelBlocks : List Block := [.wind, .governor, .sweep, .cabins, .path, .notices]

/-- The parts the end of a grant may change. -/
def grantBlocks : List Block := [.board, .cabins, .sweep, .governor, .notices]

/-- The parts a warm restart may change. -/
def restartBlocks : List Block := [.rim, .board, .wind, .governor, .sweep, .cabins, .path, .notices]

/-- The parts the end of a commit may change. -/
def commitBlocks : List Block := [.policy, .rim, .board, .wind, .governor, .sweep, .cabins, .path, .notices]

namespace Move

variable (s : State)

/-! ## The ceilings and the latch -/

theorem recomputeCeilings : Move false [.governor] s s.recomputeCeilings := .withGovernor _ _ (by decide) (by simp)

theorem recomputeBoarding : Move false [.board, .governor] s s.recomputeBoarding :=
  .trans (.withBoard _ _ (by decide) (by simp)) ((recomputeCeilings _).mono (by decide))

theorem setLatch (b : Byte) : Move false [.governor, .notices] s (s.setLatch b) := by
  unfold State.setLatch
  split
  · exact .refl ..
  · exact .trans (.trans (.post _ _ _ _ _ _ _ _ (by decide)) (.withGovernor _ _ (by decide) (by simp)))
      ((recomputeCeilings _).mono (by decide))

theorem clearLatch : Move false [.governor] s s.clearLatch :=
  .trans (.withGovernor _ _ (by decide) (by simp)) (recomputeCeilings _)

/-! ## The level -/

theorem changeLevel (l : Level) : Move false levelBlocks s (s.changeLevel l) := by
  have h : Move false levelBlocks s (s.withWind { s.wind with level := l, countdown := s.active.holdDown l }) :=
    .withWind _ _ (by decide) (by simp)
  exact .trans (.trans h (.post _ _ _ _ _ _ _ _ (by decide))) (.trans ((recomputeCeilings _).mono (by decide))
    (.trans ((sweepLevel _).up (by decide)) ((refreshBeacons _).up (by decide))))

theorem raiseLevel (l : Level) : Move false levelBlocks s (s.raiseLevel l) := .ite (changeLevel s l) (.refl ..)

theorem applyFloors : Move false levelBlocks s s.applyFloors := raiseLevel s _

theorem descend : Move false levelBlocks s s.descend := by
  have h : ∀ n, Move false levelBlocks s (s.withWind { s.wind with countdown := n }) := fun n =>
    .withWind _ _ (by decide) (by simp)
  exact .ite (h _) (.ite (.ite (changeLevel s _) (h _)) (h _))

theorem tickLevel : Move false levelBlocks s s.tickLevel := .ite (changeLevel s _) (descend s)

theorem windTick : Move false levelBlocks s s.windTick :=
  .trans (.foldl (fun t c => (tickChannel t c).up (by decide)) _ _)
    (.trans ((recomputeWind _).up (by decide)) (tickLevel _))

theorem holdDownFall : Move false levelBlocks s s.holdDownFall := .ite (changeLevel s _) (.refl ..)

theorem channelStep (c : ChannelIx) (st : ChannelState) : Move false levelBlocks s (s.channelStep c st) :=
  .ite (.trans ((setChannel s c _).up (by decide)) (.trans ((recomputeWind _).up (by decide)) (applyFloors _))) (.refl ..)

theorem windBankChange : Move false levelBlocks s s.windBankChange := by
  unfold State.windBankChange
  dsimp only
  have h : Move false levelBlocks s (channelIndices.foldl State.reassignChannel s).recomputeWind :=
    .trans (.foldl (fun t c => (reassignChannel t c).up (by decide)) _ _) ((recomputeWind _).up (by decide))
  exact .trans (.ite (.trans h (applyFloors _)) (.trans h ((trimCountdown _).up (by decide))))
    ((resendBeacons _).up (by decide))

theorem windRestart : Move false levelBlocks s s.windRestart := by
  have h : Move false levelBlocks s (s.withWind { s.wind with
      channels := Vector.ofFn fun c => (s.wind.channels[c]).restarted }) := .withWind _ _ (by decide) (by simp)
  exact .trans h (.trans ((recomputeWind _).up (by decide)) (.trans (applyFloors _) ((resendBeacons _).up (by decide))))

theorem secondTick (b : Bool) : Move false (.clock :: levelBlocks) s (s.secondTick b) := by
  unfold State.secondTick
  split
  · exact .trans ((clockTick s).up (by decide)) ((windTick _).mono (by decide))
  · exact .trans ((windTick s).mono (by decide)) ((clockTick _).up (by decide))

/-! ## Grants and doors -/

theorem withGrant (b : Berth) (x : Option Grant) : Move false [.board] s (s.withGrant b x) :=
  .withBoard _ _ (by decide) (by simp)

theorem endGrant (b : Berth) (g : Grant) : Move false grantBlocks s (s.endGrant b g) :=
  .trans (.trans (.trans ((withGrant s b none).mono (by decide)) ((registerCycle _ _ _).up (by decide)))
    ((sweepCycle _ _).up (by decide))) ((recomputeBoarding _).mono (by decide))

theorem boardDoor (c : Nat) (d : DoorState) : Move false grantBlocks s (s.boardDoor c d) := by
  unfold State.boardDoor
  split
  · exact .ite (endGrant ..) ((recomputeBoarding s).mono (by decide))
  · exact (recomputeBoarding s).mono (by decide)

theorem takeDoor (c : Nat) (d : DoorState) : Move false grantBlocks s (s.takeDoor c d) := by
  have h : Move false grantBlocks s (s.withCabin c { s.cabin c with door := d }) :=
    .withCabin _ _ _ (by decide) (by simp)
  exact .trans (.ite h (.trans h (postCabin _ _ _ (by decide)))) (boardDoor _ _ _)

theorem recordGrant (b : Berth) (c : Nat) (k : GrantKind) : Move false [.board, .governor] s (s.recordGrant b c k) :=
  .trans ((withGrant s b _).mono (by decide)) (recomputeBoarding _)

theorem screenDoor (c : Nat) (r : Bool) (k : GrantKind) (f : Frame) :
    Move false [.board, .governor, .path, .notices] s (s.screenDoor c r k f) := by
  unfold State.screenDoor
  split
  · split
    · exact .trans ((recordGrant ..).mono (by decide)) (.offer _ _ _ (by decide))
    · exact (refuseOrder ..).up (by decide)
  · exact .offer _ _ _ (by decide)

theorem boardWithdraw (c : Nat) (b : Berth) : Move false [.board, .governor, .path] s (s.boardWithdraw c b) := by
  unfold State.boardWithdraw
  split
  · exact .refl ..
  · dsimp only
    split
    · refine .trans (.trans ?_ ((withGrant _ b _).mono (by decide))) ((recomputeBoarding _).mono (by decide))
      have h : Move false [.board, .governor, .path] s (s.originateOrder (.doorLock b) .hub codeDoorOrder [byte c, 1, 0]) :=
        .originateOrder _ _ _ _ _ (by decide)
      exact .ite h (.trans h (closeEntry _ _ (by decide)))
    · exact .refl ..

theorem boardExit (c : Nat) (b : Berth) : Move false grantBlocks s (s.boardExit c b) := by
  unfold State.boardExit
  split
  · exact .refl ..
  · exact .ite (.ite (endGrant ..) (.trans ((withGrant s b _).mono (by decide)) ((recomputeBoarding _).mono (by decide))))
      (.refl ..)

/-! ## The rim -/

theorem takeZoneEvent (e : ZoneEvent) : Move false (.path :: grantBlocks) s (s.takeZoneEvent e) := by
  cases e with
  | exit c b _ =>
      exact .trans (.trans ((stampExit s c).up (by decide)) ((boardExit _ c b).mono (by decide)))
        ((sweepExit _ c b).up (by decide))
  | entry c _ => exact (setServed s c false).up (by decide)
  | withdraw c b => exact (boardWithdraw s c b).mono (by decide)

theorem takeGoodRim (p : Nat) (v : Int) : Move false (.rim :: .path :: grantBlocks) s (s.takeGoodRim p v) := by
  unfold State.takeGoodRim
  refine .trans (.trans (.trans (.withRim _ _ (by decide) (by simp)) ((recomputeCeilings _).mono (by decide)))
    (.foldl (fun t e => (takeZoneEvent t e).mono (by decide)) _ _)) (.withRim _ _ (by decide) (by simp))

theorem losePosition : Move false [.rim, .governor] s s.losePosition :=
  .trans (.withRim _ _ (by decide) (by simp)) ((recomputeCeilings _).mono (by decide))

theorem encoderExpiry : Move false [.clock, .rim, .governor, .policy, .notices] s s.encoderExpiry := by
  unfold State.encoderExpiry
  split
  · exact .refl ..
  · exact .trans (.advance _ _ (by decide)) ((losePosition _).mono (by decide))

/-! ## Restarts and commits -/

theorem warmRestart : Move false restartBlocks s s.warmRestart := by
  unfold State.warmRestart
  dsimp only
  refine .trans (.trans ?_ ((recomputeBoarding _).mono (by decide))) (.endRestart _ (by decide))
  refine .trans (.trans ?_ ((windRestart _).mono (by decide))) (.withSweep _ _ (by decide))
  exact .trans (.trans (.restart s (by decide)) (.withRim _ _ (by decide) (by simp)))
    (.withBoard _ _ (by decide) (by simp))

theorem carryOutDeferred : Move false commitBlocks s s.carryOutDeferred :=
  .ite (.trans (.withPolicy _ _ (by decide) (by simp)) ((warmRestart _).mono (by decide))) (.refl ..)

theorem postCommit (e : CommitEnd) : Move false [.notices] s (s.postCommit e) := by
  unfold State.postCommit
  dsimp only
  split <;> exact .post _ _ _ _ _ _ _ _ (by decide)

theorem finishCommit (e : CommitEnd) : Move false commitBlocks s (s.finishCommit e) :=
  .trans (.trans (.withPolicy _ _ (by decide) (by simp)) (carryOutDeferred _)) ((postCommit _ e).mono (by decide))

theorem takeBank : Move false commitBlocks s s.takeBank :=
  .trans (.trans ((rimBankChange s).up (by decide)) ((windBankChange _).mono (by decide)))
    ((recomputeBoarding _).mono (by decide))

theorem swapBanks : Move false commitBlocks s s.swapBanks := by
  unfold State.swapBanks
  split
  · exact .refl ..
  · next b _ =>
    dsimp only
    have h : Move false commitBlocks s (s.withPolicy (s.policy.swapTo b)) := .withPolicy _ _ (by decide) (by simp)
    exact .ite (.trans (.trans (.trans h (takeBank _)) (carryOutDeferred _)) ((postCommit _ _).mono (by decide)))
      (.trans (.trans h ((postCommit _ _).mono (by decide))) (takeBank _))

theorem trySwap : Move false commitBlocks s s.trySwap := .ite (swapBanks s) (.refl ..)

theorem afterGrants (t : State) : Move false commitBlocks s (s.afterGrants t) := .ite (trySwap s) (.refl ..)

theorem walkCompletion (w : Nat) : Move false commitBlocks s (s.walkCompletion w) := by
  unfold State.walkCompletion
  split
  · split
    · exact finishCommit ..
    · exact .trans (.withPolicy _ _ (by decide) (by simp)) (trySwap _)
  · exact .refl ..

theorem commitExpiry : Move false (.clock :: commitBlocks) s s.commitExpiry := by
  unfold State.commitExpiry
  split
  · exact .refl ..
  · exact .ite (.trans (.advance _ _ (by decide)) ((finishCommit _ _).mono (by decide))) (.refl ..)

theorem toFloor : Move false commitBlocks s s.toFloor :=
  .ite (.refl ..) (.trans (.withPolicy _ _ (by decide) (by simp)) (takeBank _))

theorem revert : Move false commitBlocks s s.revert := by
  unfold State.revert
  split
  · dsimp only
    have h : Move false commitBlocks s (s.withPolicy s.policy.endCommit) := .withPolicy _ _ (by decide) (by simp)
    exact .ite (.trans (.trans (.trans h (toFloor _)) (carryOutDeferred _)) ((postCommit _ _).mono (by decide)))
      (.trans (.trans h ((postCommit _ _).mono (by decide))) (toFloor _))
  · exact toFloor s

theorem tryDeferred : Move false commitBlocks s s.tryDeferred := .ite (.refl ..) (carryOutDeferred s)

/-! ## Requests -/

theorem doWriteStaging (b t f c : Byte) (es : List Byte) :
    Move false [.policy] s (s.doWriteStaging b t f c es).1 := by
  unfold State.doWriteStaging
  split
  · exact .refl ..
  · split
    · exact .refl ..
    · split
      · exact .refl ..
      · split
        · exact .refl ..
        · exact .withPolicy _ _ (by decide) (by simp)

theorem doCommitStaging (b : Byte) : Move false [.policy] s (s.doCommitStaging b).1 := by
  unfold State.doCommitStaging
  split
  · exact .refl ..
  · split
    · exact .refl ..
    · split
      · exact .refl ..
      · exact .withPolicy _ _ (by decide) (by simp)

theorem doReadDirectory (b : Byte) : Move true [] s (s.doReadDirectory b).1 := by
  unfold State.doReadDirectory
  split <;> exact .refl ..

theorem doReadTable (t b f c : Byte) : Move true [] s (s.doReadTable t b f c).1 := by
  unfold State.doReadTable
  split
  · exact .refl ..
  · split
    · exact .refl ..
    · split <;> exact .refl ..

theorem doAbortCommit : Move false commitBlocks s s.doAbortCommit.1 := by
  unfold State.doAbortCommit
  split
  · dsimp only
    exact finishCommit s _
  · exact .refl ..

theorem doSetService (c v : Byte) : Move true [.sweep, .cabins, .notices] s (s.doSetService c v).1 := by
  unfold State.doSetService
  split
  · exact setService ..
  · exact .refl ..

theorem doSetOccupancy (c n : Byte) : Move true [.sweep, .cabins, .notices] s (s.doSetOccupancy c n).1 := by
  unfold State.doSetOccupancy
  split
  · exact setOccupancy ..
  · exact .refl ..

theorem doSetOperatorFloor (l : Byte) : Move false levelBlocks s (s.doSetOperatorFloor l).1 := by
  unfold State.doSetOperatorFloor
  split
  · exact .refl ..
  · exact .trans (.withWind _ _ (by decide) (by simp)) (applyFloors _)

theorem doLatchStop : Move false [.governor, .notices] s s.doLatchStop.1 := setLatch s 1

theorem doClearStop : Move false [.governor] s s.doClearStop.1 := by
  unfold State.doClearStop
  split
  · exact .refl ..
  · split
    · exact .refl ..
    · exact clearLatch s

theorem doSetClock (h m x : Byte) : Move true [.clock] s (s.doSetClock h m x).1 := by
  unfold State.doSetClock
  split
  · exact .withClock _ _ (by decide)
  · exact .refl ..

theorem doSetClosingAlarm (h m e : Byte) : Move true [.clock] s (s.doSetClosingAlarm h m e).1 := by
  unfold State.doSetClosingAlarm
  split
  · exact .withClock _ _ (by decide)
  · exact .refl ..

theorem doResumeNotices : Move true [.notices] s s.doResumeNotices.1 := by
  unfold State.doResumeNotices
  split
  · exact .resume _ (by decide)
  · exact .refl ..

theorem doWarmRestart : Move false (.policy :: restartBlocks) s s.doWarmRestart.1 := by
  unfold State.doWarmRestart
  split
  · exact .withPolicy _ _ (by decide) (by simp)
  · exact (warmRestart s).mono (by decide)

theorem takeEnvelope (e : Envelope) : Move false [.envelope, .board, .governor, .sweep, .notices] s (s.takeEnvelope e) := by
  have h : Move false [.envelope, .board, .governor, .sweep, .notices] s (s.withEnvelope e).recomputeBoarding :=
    .trans (.withEnvelope _ _ (by decide)) ((recomputeBoarding _).mono (by decide))
  unfold State.takeEnvelope
  dsimp only
  split
  · exact h
  · exact .trans h ((finishSweep _ _ _).mono (by decide))

theorem doEnvelopeWrite (f : Byte) (v : BitVec 16) :
    Move false [.envelope, .board, .governor, .sweep, .notices] s (s.doEnvelopeWrite f v).1 := by
  unfold State.doEnvelopeWrite
  split
  · exact .refl ..
  · split
    · exact .refl ..
    · split
      · exact .refl ..
      · split
        · exact takeEnvelope s _
        · exact .refl ..

theorem doEnvelopeLock : Move false [.envelope] s s.doEnvelopeLock.1 := by
  unfold State.doEnvelopeLock
  split
  · exact .refl ..
  · split
    · exact .refl ..
    · split
      · exact .withEnvelope _ _ (by decide)
      · exact .refl ..

theorem args0 {bs : List Block} {k : Handled} (h : Move false bs s k.1) (as : List Byte) :
    Move false bs s (s.args0 k as).1 := by
  unfold State.args0
  split
  · exact h
  · exact .refl ..

theorem args1 {bs : List Block} {k : Byte → Handled} (h : ∀ a, Move false bs s (k a).1) (as : List Byte) :
    Move false bs s (s.args1 k as).1 := by
  unfold State.args1
  split
  · exact h _
  · exact .refl ..

theorem args2 {bs : List Block} {k : Byte → Byte → Handled} (h : ∀ a b, Move false bs s (k a b).1) (as : List Byte) :
    Move false bs s (s.args2 k as).1 := by
  unfold State.args2
  split
  · exact h _ _
  · exact .refl ..

theorem args3 {bs : List Block} {k : Byte → Byte → Byte → Handled} (h : ∀ a b c, Move false bs s (k a b c).1)
    (as : List Byte) : Move false bs s (s.args3 k as).1 := by
  unfold State.args3
  split
  · exact h _ _ _
  · exact .refl ..

theorem args4 {bs : List Block} {k : Byte → Byte → Byte → Byte → Handled}
    (h : ∀ a b c d, Move false bs s (k a b c d).1) (as : List Byte) : Move false bs s (s.args4 k as).1 := by
  unfold State.args4
  split
  · exact h _ _ _ _
  · exact .refl ..

theorem argsWrite (as : List Byte) : Move false eventBlocks s (s.argsWrite as).1 := by
  unfold State.argsWrite
  split
  · exact (doWriteStaging ..).mono (by decide)
  · exact .refl ..

/-- What a listed request does before its reply is admitted. -/
theorem handleListed (r : RequestCode) (as : List Byte) : Move false eventBlocks s (s.handleListed r as).1 := by
  cases r with
  | readDirectory => exact args1 s (fun _ => (doReadDirectory ..).up (by decide)) as
  | readTable => exact args4 s (fun _ _ _ _ => (doReadTable ..).up (by decide)) as
  | writeStaging => exact argsWrite s as
  | commitStaging => exact args1 s (fun _ => (doCommitStaging ..).mono (by decide)) as
  | abortCommit => exact args0 s ((doAbortCommit ..).mono (by decide)) as
  | revertToFloor => exact args0 s ((revert s).mono (by decide)) as
  | readStatus => exact args0 s (.refl ..) as
  | setService => exact args2 s (fun _ _ => (doSetService ..).up (by decide)) as
  | setOccupancy => exact args2 s (fun _ _ => (doSetOccupancy ..).up (by decide)) as
  | setOperatorFloor => exact args1 s (fun _ => (doSetOperatorFloor ..).mono (by decide)) as
  | beginSweep => exact args0 s ((sweepAdd s _ _).up (by decide)) as
  | endSweep => exact args0 s ((sweepRemove s _ _).up (by decide)) as
  | openBoarding => exact args0 s ((sweepRemove s _ _).up (by decide)) as
  | latchStop => exact args0 s ((doLatchStop s).mono (by decide)) as
  | clearStop => exact args0 s ((doClearStop s).mono (by decide)) as
  | setClock => exact args3 s (fun _ _ _ => (doSetClock ..).up (by decide)) as
  | setClosingAlarm => exact args3 s (fun _ _ _ => (doSetClosingAlarm ..).up (by decide)) as
  | resumeNotices => exact args0 s ((doResumeNotices s).up (by decide)) as
  | warmRestart => exact args0 s ((doWarmRestart s).mono (by decide)) as
  | envelopeWrite => exact args3 s (fun _ _ _ => (doEnvelopeWrite ..).mono (by decide)) as
  | envelopeLock => exact args0 s ((doEnvelopeLock s).mono (by decide)) as

/-- What a request does before its reply is admitted. -/
theorem handleRequest (code : Byte) (as : List Byte) : Move false eventBlocks s (s.handleRequest code as).1 := by
  unfold State.handleRequest
  split
  · exact handleListed s _ as
  · exact .refl ..

/-! ## The Frame Sorter -/

theorem toScreen (f : Frame) : Move false [.governor, .board, .path, .notices] s (s.toScreen f) := by
  unfold State.toScreen
  split
  · split
    · exact (screenSpeed ..).up (by decide)
    · exact .offer _ _ _ (by decide)
  · split
    · exact (screenGate ..).up (by decide)
    · exact .offer _ _ _ (by decide)
  · exact (screenDoor ..).mono (by decide)
  · exact .offer _ _ _ (by decide)

theorem screenOrder (f : Frame) : Move false [.governor, .board, .path, .notices] s (s.screenOrder f) := by
  unfold State.screenOrder
  split
  · exact (refuseUnscreened s _ f).up (by decide)
  · split
    · exact (refuseUnscreened s _ f).up (by decide)
    · exact toScreen s f

theorem treat (p : Port) (f : Frame) : Move false [.governor, .board, .path, .notices] s (s.treat p f) := by
  unfold State.treat
  dsimp only
  split
  · exact .offer _ _ _ (by decide)
  · split
    · exact (refuseUnscreened ..).up (by decide)
    · exact .post _ _ _ _ _ _ _ _ (by decide)
  · split
    · exact screenOrder s f
    · split
      · exact .offer _ _ _ (by decide)
      · exact .post _ _ _ _ _ _ _ _ (by decide)

theorem handOver (b : Bool) (f : Frame) : Move false eventBlocks s (s.handOver b f) := by
  have n : Move false eventBlocks s (s.noteAboveN b f) := by
    unfold State.noteAboveN
    split
    · exact .refl ..
    · exact .post _ _ _ _ _ _ _ _ (by decide)
  unfold State.handOver
  split
  · exact .ite (.trans ((takeGoodRim ..).mono (by decide)) ((afterGrants ..).mono (by decide)))
      ((losePosition s).mono (by decide))
  · exact .ite ((takeSample ..).up (by decide)) (.refl ..)
  · exact .ite (.trans ((takeDoor ..).mono (by decide)) ((afterGrants ..).mono (by decide))) n
  · exact .ite ((takeCount ..).up (by decide)) n
  · exact (takeGates ..).up (by decide)
  · exact .refl ..

end Move

end Sys2Proof.Machine
end

