-- ==== Sys2Proof/Laws/Close.lean ====
section
/-! SUPPORT. The close of an event, the taking of an event and the answer to a request: what each changes, and the equations by
which a command at a part at work is read off. -/

namespace Sys2Proof.Machine

theorem State.post_phase (s : State) (k : NoticeKind) (m : Bool) (b d0 d1 d2 d3 : Byte) :
    (s.post k m b d0 d1 d2 d3).phase = s.phase := s.post_frame k m b d0 d1 d2 d3 .phase (by decide)

/-! ## Building and choosing -/

theorem State.enqueuePart_frame (s : State) (d c : Byte) (p : List Byte) : s.OnlyChanges (s.enqueuePart d c p) [.path] :=
  fun b hb => by cases b <;> first | (exfalso; exact hb (by decide)) | rfl

theorem State.buildNotice_frame (s : State) : s.OnlyChanges s.buildNotice [.path, .notices] := by
  unfold State.buildNotice
  split
  · intro b hb; cases b <;> first | (exfalso; exact hb (by decide)) | rfl
  · exact .refl _ _

theorem State.buildNotices_frame (s : State) : s.OnlyChanges s.buildNotices [.path, .notices] :=
  ((((s.buildNotice_frame.trans (State.buildNotice_frame _)).trans (State.buildNotice_frame _)).trans
    (State.buildNotice_frame _)).trans (State.buildNotice_frame _)).trans (State.buildNotice_frame _)

theorem State.chooseField_frame (s : State) : s.OnlyChanges s.chooseField [.path] := by
  unfold State.chooseField
  intro b hb
  split
  · exact s.same_refl b
  · split
    · cases b <;> first | (exfalso; exact hb (by decide)) | rfl
    · split
      · cases b <;> first | (exfalso; exact hb (by decide)) | rfl
      · exact s.same_refl b

theorem State.chooseSupervisor_frame (s : State) : s.OnlyChanges s.chooseSupervisor [.path] := by
  unfold State.chooseSupervisor
  intro b hb
  split
  · exact s.same_refl b
  · split
    · cases b <;> first | (exfalso; exact hb (by decide)) | rfl
    · cases b <;> first | (exfalso; exact hb (by decide)) | rfl
    · split <;> (cases b <;> first | (exfalso; exact hb (by decide)) | rfl)
    · exact s.same_refl b

theorem State.choose_frame (s : State) (p : Port) : s.OnlyChanges (s.choose p) [.path] := by
  cases p
  · exact s.chooseSupervisor_frame
  · exact s.chooseField_frame

theorem State.settle_frame (s : State) : s.OnlyChanges s.settle [.path, .notices] :=
  ((((s.chooseSupervisor_frame.mono (by decide)).trans (State.buildNotices_frame _)).trans
    ((State.chooseSupervisor_frame _).mono (by decide))).trans (State.buildNotices_frame _)).trans
    ((State.chooseField_frame _).mono (by decide))

theorem State.foldl_deliver_frame (l : List Notice) (s : State) : s.OnlyChanges (l.foldl State.deliver s) [.notices] := by
  induction l generalizing s with
  | nil => exact .refl _ _
  | cons n l ih => exact (s.deliver_frame n).trans (ih _)

theorem State.releaseAtClose_frame (s : State) : s.OnlyChanges s.releaseAtClose [.notices] :=
  State.OnlyChanges.trans (fun b hb => by cases b <;> first | (exfalso; exact hb (by decide)) | rfl)
    (State.foldl_deliver_frame _ _)

/-- The close of an event changes nothing but the Frame Path and the Notice Unit. -/
theorem State.close_frame (s : State) : s.OnlyChanges s.close [.path, .notices] :=
  (s.releaseAtClose_frame.mono (by decide)).trans (State.settle_frame _)

/-! ## The close, field by field -/

@[simp] theorem State.close_pending (s : State) : s.close.pending = s.pending := s.close_frame .pending (by decide)
@[simp] theorem State.close_phase (s : State) : s.close.phase = s.phase := s.close_frame .phase (by decide)
@[simp] theorem State.close_mode (s : State) : s.close.mode = s.mode := s.close_frame .mode (by decide)
@[simp] theorem State.close_stopIn (s : State) : s.close.stopIn = s.stopIn := s.close_frame .stopIn (by decide)
@[simp] theorem State.close_clock (s : State) : s.close.clock = s.clock := s.close_frame .clock (by decide)
@[simp] theorem State.close_rim (s : State) : s.close.rim = s.rim := s.close_frame .rim (by decide)
@[simp] theorem State.close_cabins (s : State) : s.close.cabins = s.cabins := s.close_frame .cabins (by decide)
@[simp] theorem State.close_board (s : State) : s.close.board = s.board := s.close_frame .board (by decide)
@[simp] theorem State.close_wind (s : State) : s.close.wind = s.wind := s.close_frame .wind (by decide)
@[simp] theorem State.close_governor (s : State) : s.close.governor = s.governor := s.close_frame .governor (by decide)
@[simp] theorem State.close_sweep (s : State) : s.close.sweep = s.sweep := s.close_frame .sweep (by decide)
@[simp] theorem State.close_policy (s : State) : s.close.policy = s.policy := s.close_frame .policy (by decide)
@[simp] theorem State.close_envelope (s : State) : s.close.envelope = s.envelope := s.close_frame .envelope (by decide)

/-! ## Events and answers -/

/-- At a part at work an event acts and closes. -/
theorem State.takeEvent_running {s : State} (h : s.phase = .running) (f : State → State) : s.takeEvent f = (f s).close := by
  unfold State.takeEvent; rw [h]

/-- Held in reset or without power the part takes no event. -/
theorem State.takeEvent_idle {s : State} (h : s.phase ≠ .running) (f : State → State) : s.takeEvent f = s := by
  unfold State.takeEvent
  cases hp : s.phase <;> simp_all

/-- A request that finds room is carried out, and its reply admitted. -/
theorem State.answer_room {s : State} (h : s.path.part.length < partRoom) (who : Requester) (f : State → Handled) :
    s.answer who f = (f s).1.enqueuePart who.node codeReply ((f s).2.payload who.tag) := by
  unfold State.answer; rw [if_pos h]

/-- A request that finds the part queue full is discarded (R13). -/
theorem State.answer_full {s : State} (h : ¬ s.path.part.length < partRoom) (who : Requester) (f : State → Handled) :
    s.answer who f = s := by
  unfold State.answer; rw [if_neg h]

/-- An event changes what its body changes, the Frame Path and the Notice Unit. -/
theorem State.takeEvent_frame {s : State} {f : State → State} {bs : List Block} (h : s.OnlyChanges (f s) bs) :
    s.OnlyChanges (s.takeEvent f) (.path :: .notices :: bs) := by
  by_cases hp : s.phase = .running
  · rw [State.takeEvent_running hp]
    exact (h.mono (by simp)).trans ((f s).close_frame.mono (by simp))
  · rw [State.takeEvent_idle hp]
    exact .refl _ _

/-- An answered request changes what its body changes, and the Frame Path. -/
theorem State.answer_frame {s : State} {f : State → Handled} {bs : List Block} (who : Requester)
    (h : s.OnlyChanges (f s).1 bs) : s.OnlyChanges (s.answer who f) (.path :: bs) := by
  by_cases hp : s.path.part.length < partRoom
  · rw [State.answer_room hp]
    exact (h.mono (by simp)).trans ((State.enqueuePart_frame _ _ _ _).mono (by simp))
  · rw [State.answer_full hp]
    exact .refl _ _

end Sys2Proof.Machine
end

