-- ==== Sys2Proof/Laws/Bounds.lean ====
section
/-! SUPPORT. The bounds of the queues, operation by operation: the notice queue and the combining buffer, the origin queue, the
moves, and the building and choosing that follow an event. -/

namespace Sys2Proof.Machine

/-! ## Keys of notices -/

theorem Notice.sameKey_symm (m n : Notice) : m.sameKey n = n.sameKey m := by
  unfold Notice.sameKey
  cases m.kind <;> cases n.kind <;> simp [Bool.beq_comm]

theorem Notice.sameKey_of_same {m n x : Notice} (h : m.sameKey n = true) : x.sameKey m = x.sameKey n := by
  unfold Notice.sameKey at *
  cases hm : m.kind <;> cases hn : n.kind <;> cases hx : x.kind <;> simp_all

/-! ## The combining buffer and the notice queue -/

theorem NoticeUnit.enter_buffer (u : NoticeUnit) (n : Notice) : (u.enter n).buffer = u.buffer := by
  unfold NoticeUnit.enter
  split
  · split <;> rfl
  all_goals rfl

theorem NoticeUnit.enter_flush (u : NoticeUnit) (n : Notice) : (u.enter n).flush = u.flush := by
  unfold NoticeUnit.enter
  split
  · split <;> rfl
  all_goals rfl

theorem markLast_length (l : List Queued) : (markLast l).length = l.length := by
  induction l with
  | nil => rfl
  | cons x l ih =>
    cases l with
    | nil => rfl
    | cons y l => simp only [markLast, List.length_cons] at *; omega

theorem NoticeUnit.enter_queue (u : NoticeUnit) (n : Notice) (h : u.queue.length ≤ 32) :
    (u.enter n).queue.length ≤ 32 := by
  unfold NoticeUnit.enter
  split
  · split
    · next k => simp only [List.length_append, List.length_singleton]; unfold queueRoom at k; omega
    · simp only [markLast_length]; exact h
  all_goals exact h

theorem NoticeUnit.foldl_enter (l : List Notice) (u : NoticeUnit) (h : u.queue.length ≤ 32) :
    (l.foldl NoticeUnit.enter u).buffer = u.buffer ∧ (l.foldl NoticeUnit.enter u).flush = u.flush ∧
      (l.foldl NoticeUnit.enter u).queue.length ≤ 32 := by
  induction l generalizing u with
  | nil => exact ⟨rfl, rfl, h⟩
  | cons n l ih =>
    obtain ⟨h1, h2, h3⟩ := ih (u.enter n) (u.enter_queue n h)
    exact ⟨h1.trans (u.enter_buffer n), h2.trans (u.enter_flush n), h3⟩

/-- An empty buffer with its timer stopped, and a queue within its bound. -/
theorem NoticeUnit.Sound.of_empty {u : NoticeUnit} (hb : u.buffer = []) (hf : u.flush = none)
    (hq : u.queue.length ≤ 32) : u.Sound :=
  ⟨by simp [hb], by simp [hb], by simp [hb], by simp [hb, hf], hq⟩

theorem NoticeUnit.drain_sound {u : NoticeUnit} (h : u.queue.length ≤ 32) : u.drain.Sound :=
  have k := NoticeUnit.foldl_enter u.buffer { u with buffer := [], flush := none } h
  .of_empty k.1 k.2.1 k.2.2

theorem NoticeUnit.drain_buffer {u : NoticeUnit} (h : u.queue.length ≤ 32) : u.drain.buffer = [] :=
  (NoticeUnit.foldl_enter u.buffer { u with buffer := [], flush := none } h).1

theorem NoticeUnit.enter_sound {u : NoticeUnit} (n : Notice) (h : u.Sound) : (u.enter n).Sound :=
  ⟨by rw [u.enter_buffer]; exact h.buffer, by rw [u.enter_buffer]; exact h.keys, by rw [u.enter_buffer]; exact h.combinable,
    by rw [u.enter_buffer, u.enter_flush]; exact h.flush, u.enter_queue n h.queue⟩

theorem foldInto_length (n : Notice) (l : List Notice) : (foldInto n l).length = l.length := by
  induction l with
  | nil => rfl
  | cons m l ih => unfold foldInto; split <;> simp [ih]

theorem foldInto_mem {n x : Notice} {l : List Notice} (h : x ∈ foldInto n l) :
    x ∈ l ∨ (∃ m ∈ l, m.sameKey n = true ∧ x.kind = n.kind ∧ ∀ y : Notice, y.sameKey x = y.sameKey m) := by
  induction l with
  | nil => simp [foldInto] at h
  | cons m l ih =>
    unfold foldInto at h
    split at h
    · next k =>
      rcases List.mem_cons.1 h with rfl | h
      · refine .inr ⟨m, by simp, k, rfl, fun y => ?_⟩
        rw [Notice.sameKey_of_same k]
        rfl
      · exact .inl (by simp [h])
    · rcases List.mem_cons.1 h with rfl | h
      · exact .inl (by simp)
      · rcases ih h with h | ⟨m', hm, hs⟩
        · exact .inl (by simp [h])
        · exact .inr ⟨m', by simp [hm], hs⟩

theorem foldInto_pairwise (n : Notice) (l : List Notice) (h : l.Pairwise fun a b => a.sameKey b = false) :
    (foldInto n l).Pairwise fun a b => a.sameKey b = false := by
  induction l with
  | nil => exact h
  | cons m l ih =>
    rw [List.pairwise_cons] at h
    unfold foldInto
    split
    · next k =>
      refine List.pairwise_cons.2 ⟨fun b hb => ?_, h.2⟩
      have := h.1 b hb
      rw [Notice.sameKey_symm] at this ⊢
      rw [Notice.sameKey_of_same k] at this
      exact this
    · refine List.pairwise_cons.2 ⟨fun b hb => ?_, ih h.2⟩
      rcases foldInto_mem hb with hb | ⟨x, hx, _, _, hk⟩
      · exact h.1 b hb
      · rw [hk m]; exact h.1 x hx

theorem NoticeUnit.combine_sound {u : NoticeUnit} (d : Nat) {n : Notice} (hn : n.kind.combinable = true) (h : u.Sound) :
    (u.combine d n).Sound := by
  unfold NoticeUnit.combine
  split
  · refine ⟨?_, foldInto_pairwise n _ h.keys, ?_, ?_, h.queue⟩
    · simp only [foldInto_length]; exact h.buffer
    · intro x hx
      rcases foldInto_mem hx with hx | ⟨_, _, _, hk, _⟩
      · exact h.combinable x hx
      · rw [hk]; exact hn
    · rw [h.flush, ← List.length_eq_zero_iff, ← List.length_eq_zero_iff, foldInto_length]
  · next k =>
    have hnew : ∀ m ∈ u.buffer, m.sameKey n = false := by
      intro m hm
      by_contra hc
      exact k (List.any_eq_true.2 ⟨m, hm, by simpa using hc⟩)
    split
    · exact ⟨by simp, by simp, by simpa using hn, by simp, h.queue⟩
    · next m ms hb =>
      split
      · next hl =>
        refine ⟨?_, ?_, ?_, ?_, h.queue⟩
        · simp only [List.length_append, List.length_singleton]; unfold bufferRoom at hl; omega
        · rw [List.pairwise_append]
          refine ⟨h.keys, by simp, fun a ha b hb => ?_⟩
          rw [List.mem_singleton.1 hb]; exact hnew a ha
        · intro x hx
          rcases List.mem_append.1 hx with hx | hx
          · exact h.combinable x hx
          · rw [List.mem_singleton.1 hx]; exact hn
        · simp [h.flush, hb]
      · have he := NoticeUnit.enter_sound m h
        have hk := h.keys
        have hc := h.combinable
        have hbl := h.buffer
        rw [hb] at hk hc hnew hbl
        refine ⟨?_, ?_, ?_, ?_, he.queue⟩
        · simp only [List.length_append, List.length_cons, List.length_nil] at *; omega
        · rw [List.pairwise_append]
          refine ⟨(List.pairwise_cons.1 hk).2, by simp, fun a ha b hb => ?_⟩
          rw [List.mem_singleton.1 hb]; exact hnew a (by simp [ha])
        · intro x hx
          rcases List.mem_append.1 hx with hx | hx
          · exact hc x (by simp [hx])
          · rw [List.mem_singleton.1 hx]; exact hn
        · simp [u.enter_flush, h.flush, hb]

theorem NoticeUnit.take_sound {u : NoticeUnit} (d : Nat) (n : Notice) (h : u.Sound) : (u.take d n).Sound := by
  unfold NoticeUnit.take
  split
  · next k => exact NoticeUnit.combine_sound d k h
  · exact NoticeUnit.enter_sound n (NoticeUnit.drain_sound h.queue)

theorem State.deliver_sound {s : State} (n : Notice) (h : s.notices.Sound) : (s.deliver n).notices.Sound := by
  unfold State.deliver
  split
  · exact ⟨h.buffer, h.keys, h.combinable, h.flush, h.queue⟩
  · exact NoticeUnit.take_sound _ _ h

theorem NoticeUnit.giveUp_sound {u : NoticeUnit} (t : Nat) (h : u.Sound) : (u.giveUp t).Sound := by
  unfold NoticeUnit.giveUp
  dsimp only
  split
  · next k =>
    refine ⟨h.buffer, h.keys, h.combinable, h.flush, ?_⟩
    have : 0 < u.queue.length := by
      rcases hq : u.queue with _ | ⟨x, l⟩
      · simp [hq] at k
      · simp
    simp only [List.length_append, List.length_drop, List.length_singleton]
    have := h.queue
    omega
  · split
    · exact ⟨h.buffer, h.keys, h.combinable, h.flush, by simp only [List.length_drop]; have := h.queue; omega⟩
    · exact ⟨h.buffer, h.keys, h.combinable, h.flush, by simp only [List.length_drop]; have := h.queue; omega⟩

/-! ## The origin queue -/

theorem placeOrigin_keys (o : Originated) (l : List Originated) :
    (placeOrigin o l).map Originated.key =
      if o.key ∈ l.map Originated.key then l.map Originated.key else l.map Originated.key ++ [o.key] := by
  induction l with
  | nil => simp [placeOrigin]
  | cons w l ih =>
    unfold placeOrigin
    by_cases h : w.key = o.key
    · simp [h]
    · have h' : o.key ≠ w.key := fun e => h e.symm
      rw [if_neg h, List.map_cons, ih]
      by_cases hm : o.key ∈ l.map Originated.key
      · rw [if_pos hm, if_pos (by simp only [List.map_cons, List.mem_cons, hm, or_true])]; rfl
      · rw [if_neg hm, if_neg (by simp only [List.map_cons, List.mem_cons, h', hm, or_self, not_false_eq_true])]; rfl

theorem placeOrigin_nodup (o : Originated) (l : List Originated) (h : (l.map Originated.key).Nodup) :
    ((placeOrigin o l).map Originated.key).Nodup := by
  rw [placeOrigin_keys]
  split
  · exact h
  · next k =>
    rw [List.nodup_append]
    exact ⟨h, by simp, fun a ha b hb => by rw [List.mem_singleton.1 hb]; rintro rfl; exact k ha⟩

/-! ## Moves -/

theorem State.deliver_path (s : State) (n : Notice) : (s.deliver n).path = s.path := s.deliver_frame n .path (by decide)

theorem State.post_path (s : State) (k : NoticeKind) (m : Bool) (b d0 d1 d2 d3 : Byte) :
    (s.post k m b d0 d1 d2 d3).path = s.path := s.deliver_path _

theorem State.offerForward_bounded {s : State} (p : Port) (f : Frame) (h : s.path.Bounded) :
    (s.offerForward p f).path.Bounded := by
  unfold State.offerForward
  cases p <;> dsimp only <;> split
  · next k =>
    exact ⟨by simp only [State.withPath_path, List.length_append, List.length_singleton]; unfold forwardRoom at k; omega,
      h.fldForward, h.part, h.origin, h.runCount⟩
  · unfold State.postCongestion; rw [State.post_path]; exact h
  · next k =>
    exact ⟨h.supForward,
      by simp only [State.withPath_path, List.length_append, List.length_singleton]; unfold forwardRoom at k; omega,
      h.part, h.origin, h.runCount⟩
  · unfold State.postCongestion; rw [State.post_path]; exact h

theorem State.offerForward_part (s : State) (p : Port) (f : Frame) : (s.offerForward p f).path.part = s.path.part := by
  unfold State.offerForward
  cases p <;> dsimp only <;> split
  all_goals first
    | rfl
    | (unfold State.postCongestion; rw [State.post_path])

theorem State.offerForward_sound {s : State} (p : Port) (f : Frame) (h : s.notices.Sound) :
    (s.offerForward p f).notices.Sound := by
  unfold State.offerForward
  cases p <;> dsimp only <;> split
  all_goals first
    | exact h
    | exact State.deliver_sound _ h

theorem FramePath.setStaging_bounded {p : FramePath} (q : Port) (x : Staging) (h : p.Bounded) :
    (p.setStaging q x).Bounded := by
  cases q <;> exact ⟨h.supForward, h.fldForward, h.part, h.origin, h.runCount⟩

theorem FramePath.restarted_bounded (p : FramePath) : p.restarted.Bounded :=
  ⟨by simp [FramePath.restarted], by simp [FramePath.restarted], by simp [FramePath.restarted],
    by simp [FramePath.restarted, FramePath.originKeys], by simp [FramePath.restarted]⟩

/-- A move keeps the bounds of the outgoing queues. -/
theorem Move.path_bounded {q : Bool} {bs : List Block} {s t : State} (h : Move q bs s t) (hb : s.path.Bounded) :
    t.path.Bounded := by
  induction h with
  | keep _ hp _ _ => rw [hp]; exact hb
  | post s k m b d0 d1 d2 d3 _ => rw [State.post_path]; exact hb
  | offer s p f _ => exact State.offerForward_bounded p f hb
  | originate s k d c p _ => exact ⟨hb.supForward, hb.fldForward, hb.part, placeOrigin_nodup _ _ hb.origin, hb.runCount⟩
  | staging s p x _ => exact FramePath.setStaging_bounded p x hb
  | advance s ms _ => exact hb
  | drain s _ => exact hb
  | resume s _ => exact hb
  | restart s _ => exact FramePath.restarted_bounded _
  | endRestart s _ => exact hb
  | trans _ _ ih ik => exact ik (ih hb)

/-- A move admits nothing to the part queue. -/
theorem Move.part_le {q : Bool} {bs : List Block} {s t : State} (h : Move q bs s t) :
    t.path.part.length ≤ s.path.part.length := by
  induction h with
  | keep _ hp _ _ => rw [hp]
  | post s k m b d0 d1 d2 d3 _ => rw [State.post_path]
  | offer s p f _ => rw [State.offerForward_part]
  | originate s k d c p _ => exact le_refl _
  | staging s p x _ => cases p <;> exact le_refl _
  | advance s ms _ => exact le_refl _
  | drain s _ => exact le_refl _
  | resume s _ => exact le_refl _
  | restart s _ => exact Nat.zero_le _
  | endRestart s _ => exact le_refl _
  | trans _ _ ih ik => exact le_trans ik ih

/-- A move keeps the bounds of the combining buffer and the notice queue. -/
theorem Move.notices_sound {q : Bool} {bs : List Block} {s t : State} (h : Move q bs s t) (hb : s.notices.Sound) :
    t.notices.Sound := by
  induction h with
  | keep _ _ hn _ => rw [hn]; exact hb
  | post s k m b d0 d1 d2 d3 _ => exact State.deliver_sound _ hb
  | offer s p f _ => exact State.offerForward_sound p f hb
  | originate s k d c p _ => exact hb
  | staging s p x _ => exact hb
  | advance s ms _ =>
      exact ⟨hb.buffer, hb.keys, hb.combinable, by simpa [State.advance] using hb.flush, hb.queue⟩
  | drain s _ => exact NoticeUnit.drain_sound hb.queue
  | resume s _ => exact ⟨hb.buffer, hb.keys, hb.combinable, hb.flush, hb.queue⟩
  | restart s _ => exact .of_empty rfl rfl (Nat.zero_le _)
  | endRestart s _ => exact ⟨hb.buffer, hb.keys, hb.combinable, hb.flush, hb.queue⟩
  | trans _ _ ih ik => exact ik (ih hb)

/-! ## Building, choosing and the close -/

theorem State.enqueuePart_bounded {s : State} (d c : Byte) (p : List Byte) (hr : s.path.part.length < 8)
    (h : s.path.Bounded) : (s.enqueuePart d c p).path.Bounded :=
  have k : (s.path.part ++ [Frame.build d s.envelope.own c 0 s.path.supSeq p]).length ≤ 8 := by
    rw [List.length_append, List.length_singleton]; omega
  ⟨h.supForward, h.fldForward, k, h.origin, h.runCount⟩

theorem State.buildNotice_bounded {s : State} (h : s.path.Bounded) : s.buildNotice.path.Bounded := by
  unfold State.buildNotice
  split
  · next k =>
    have : s.path.part.length < 8 := by have := k.2; unfold noticeRoom at this; omega
    exact State.enqueuePart_bounded _ _ _ this h
  · exact h

theorem State.buildNotice_sound {s : State} (h : s.notices.Sound) : s.buildNotice.notices.Sound := by
  unfold State.buildNotice
  split
  · exact NoticeUnit.giveUp_sound _ h
  · exact h

theorem State.chooseSupervisor_bounded {s : State} (h : s.path.Bounded) : s.chooseSupervisor.path.Bounded := by
  obtain ⟨h1, h2, h3, h4, h5⟩ := h
  unfold State.chooseSupervisor
  split
  · exact ⟨h1, h2, h3, h4, h5⟩
  · split
    · next hf hp => rw [hf] at h1; exact ⟨by simp at h1 ⊢; omega, h2, h3, h4, by simp⟩
    · next hf hp => rw [hp] at h3; exact ⟨h1, h2, by simp at h3 ⊢; omega, h4, by simp⟩
    · next hf hp =>
      rw [hf] at h1; rw [hp] at h3
      split
      · next k => exact ⟨by simp at h1 ⊢; omega, h2, by rw [← hp] at h3; exact h3, h4, by simp; omega⟩
      · exact ⟨by rw [← hf] at h1; exact h1, h2, by simp at h3 ⊢; omega, h4, by simp⟩
    · exact ⟨h1, h2, h3, h4, h5⟩

theorem State.chooseField_bounded {s : State} (h : s.path.Bounded) : s.chooseField.path.Bounded := by
  obtain ⟨h1, h2, h3, h4, h5⟩ := h
  unfold State.chooseField
  split
  · exact ⟨h1, h2, h3, h4, h5⟩
  · split
    · next o os ho =>
      refine ⟨h1, h2, h3, ?_, h5⟩
      simp only [FramePath.originKeys, ho, List.map_cons, List.nodup_cons] at h4
      exact h4.2
    · split
      · next hf => rw [hf] at h2; exact ⟨h1, by simp at h2 ⊢; omega, h3, h4, h5⟩
      · exact ⟨h1, h2, h3, h4, h5⟩

theorem State.choose_bounded {s : State} (p : Port) (h : s.path.Bounded) : (s.choose p).path.Bounded := by
  cases p
  · exact State.chooseSupervisor_bounded h
  · exact State.chooseField_bounded h

theorem State.chooseSupervisor_notices (s : State) : s.chooseSupervisor.notices = s.notices :=
  s.chooseSupervisor_frame .notices (by decide)

theorem State.chooseField_notices (s : State) : s.chooseField.notices = s.notices :=
  s.chooseField_frame .notices (by decide)

theorem State.buildNotices_bounded {s : State} (h : s.path.Bounded) : s.buildNotices.path.Bounded :=
  State.buildNotice_bounded <| State.buildNotice_bounded <| State.buildNotice_bounded <| State.buildNotice_bounded <|
    State.buildNotice_bounded <| State.buildNotice_bounded h

theorem State.buildNotices_sound {s : State} (h : s.notices.Sound) : s.buildNotices.notices.Sound :=
  State.buildNotice_sound <| State.buildNotice_sound <| State.buildNotice_sound <| State.buildNotice_sound <|
    State.buildNotice_sound <| State.buildNotice_sound h

theorem State.settle_bounded {s : State} (h : s.path.Bounded) : s.settle.path.Bounded :=
  State.chooseField_bounded <| State.buildNotices_bounded <| State.chooseSupervisor_bounded <|
    State.buildNotices_bounded <| State.chooseSupervisor_bounded h

theorem State.settle_sound {s : State} (h : s.notices.Sound) : s.settle.notices.Sound := by
  unfold State.settle
  rw [State.chooseField_notices]
  refine State.buildNotices_sound ?_
  rw [State.chooseSupervisor_notices]
  refine State.buildNotices_sound ?_
  rw [State.chooseSupervisor_notices]
  exact h

theorem State.foldl_deliver (l : List Notice) (s : State) (h : s.notices.Sound) (hb : s.notices.Between) :
    (l.foldl State.deliver s).path = s.path ∧ (l.foldl State.deliver s).notices.Sound ∧
      (l.foldl State.deliver s).notices.Between := by
  induction l generalizing s with
  | nil => exact ⟨rfl, h, hb⟩
  | cons n l ih =>
    have k : (s.deliver n).notices.Between := by
      unfold State.deliver
      rw [if_neg (by simp [hb.1])]
      have e : ∀ (u : NoticeUnit) (m : Notice), (u.enter m).restarting = u.restarting ∧ (u.enter m).atClose = u.atClose := by
        intro u m
        unfold NoticeUnit.enter
        split
        · split <;> exact ⟨rfl, rfl⟩
        all_goals exact ⟨rfl, rfl⟩
      have f : ∀ (l : List Notice) (u : NoticeUnit), (l.foldl NoticeUnit.enter u).restarting = u.restarting ∧
          (l.foldl NoticeUnit.enter u).atClose = u.atClose := by
        intro l
        induction l with
        | nil => exact fun _ => ⟨rfl, rfl⟩
        | cons m l ih => exact fun u => ⟨(ih _).1.trans (e u m).1, (ih _).2.trans (e u m).2⟩
      simp only [State.withNotices_notices, NoticeUnit.take, NoticeUnit.combine, NoticeUnit.drain, NoticeUnit.Between]
      split_ifs <;> (try split) <;> (try split) <;> simp_all [NoticeUnit.Between]
    obtain ⟨h1, h2, h3⟩ := ih (s.deliver n) (State.deliver_sound n h) k
    exact ⟨h1.trans (s.deliver_path n), h2, h3⟩

theorem State.buildNotice_between {s : State} (h : s.notices.Between) : s.buildNotice.notices.Between := by
  unfold State.buildNotice
  split
  · simp only [State.withNotices_notices, NoticeUnit.giveUp]
    split
    · exact h
    · split <;> exact h
  · exact h

theorem State.buildNotices_between {s : State} (h : s.notices.Between) : s.buildNotices.notices.Between :=
  State.buildNotice_between <| State.buildNotice_between <| State.buildNotice_between <| State.buildNotice_between <|
    State.buildNotice_between <| State.buildNotice_between h

theorem State.settle_between {s : State} (h : s.notices.Between) : s.settle.notices.Between := by
  unfold State.settle
  rw [State.chooseField_notices]
  refine State.buildNotices_between ?_
  rw [State.chooseSupervisor_notices]
  refine State.buildNotices_between ?_
  rw [State.chooseSupervisor_notices]
  exact h

/-- The close of an event leaves every queue within its bounds, with no restart under way. -/
theorem State.close_queues {s : State} (hp : s.path.Bounded) (hn : s.notices.Sound) : s.close.QueuesBounded := by
  obtain ⟨h1, h2, h3⟩ := State.foldl_deliver s.notices.atClose
    (s.withNotices { s.notices with restarting := false, atClose := [] })
    ⟨hn.buffer, hn.keys, hn.combinable, hn.flush, hn.queue⟩ ⟨rfl, rfl⟩
  refine ⟨State.settle_bounded ?_, State.settle_sound h2, State.settle_between h3⟩
  unfold State.releaseAtClose
  rw [h1]
  exact hp

end Sys2Proof.Machine
end

