-- ==== Sys2Proof/Laws/Governed.lean ====
section
/-! SUPPORT. The conditions, the ceilings and the rim-hold line, operation by operation: a quiet operation keeps what they
depend on, and every other operation recomputes what it must. -/

namespace Sys2Proof.Machine

variable {s t : State}

/-! ## The conditions and the ceilings are functions of their inputs -/

theorem State.SameInputs.holdsGrant (h : s.SameInputs t) (c : Nat) : t.holdsGrant c = s.holdsGrant c := by
  unfold State.holdsGrant State.grantOf; rw [h.grants]

theorem State.SameInputs.doorStopNow (h : s.SameInputs t) : t.doorStopNow = s.doorStopNow := by
  simp only [State.doorStopNow, State.cabinNumbers, State.grants, h.envelope, h.grants, h.doors, h.holdsGrant]

theorem State.SameInputs.creepNow (h : s.SameInputs t) : t.creepNow = s.creepNow := by
  simp only [State.creepNow, State.cabinNumbers, State.grants, h.envelope, h.grants, h.doors]

theorem State.SameInputs.creepValueNow (h : s.SameInputs t) : t.creepValueNow = s.creepValueNow := by
  have k : t.creepsAt = s.creepsAt := by funext b; simp only [State.creepsAt, h.grants]
  simp only [State.creepValueNow, State.creepCeilings, h.active, k]

theorem State.SameInputs.forwardNow (h : s.SameInputs t) : t.forwardNow = s.forwardNow := by
  simp only [State.forwardNow, State.boardCeiling, State.positionCeiling, h.envelope, h.active, h.level, h.latch,
    h.doorStop, h.creep, h.creepValue, h.known]

theorem State.SameInputs.reverseNow (h : s.SameInputs t) : t.reverseNow = s.reverseNow := by
  unfold State.reverseNow State.reversePermitted State.noGrants
  rw [h.grants, h.level, h.active, h.forwardNow, h.envelope]

theorem State.SameInputs.banksApart (h : s.SameInputs t) (g : s.BanksApart) : t.BanksApart := by
  unfold State.BanksApart at *
  rw [h.bank, h.staging, h.commitBank]; exact g

theorem State.SameInputs.conditionsAgree (h : s.SameInputs t) (g : s.ConditionsAgree) : t.ConditionsAgree := by
  unfold State.ConditionsAgree at *
  rw [h.doorStop, h.creep, h.creepValue, h.doorStopNow, h.creepNow, h.creepValueNow]; exact g

theorem State.SameInputs.ceilingsAgree (h : s.SameInputs t) (g : s.CeilingsAgree) : t.CeilingsAgree := by
  unfold State.CeilingsAgree at *
  rw [h.ceilingF, h.ceilingV, h.phase, h.rimHold, h.mode, h.forwardNow, h.reverseNow]; exact g

theorem State.SameInputs.governed (h : s.SameInputs t) (g : s.Governed) : t.Governed :=
  ⟨h.banksApart g.1, h.conditionsAgree g.2.1, h.ceilingsAgree g.2.2⟩

/-- A quiet move keeps the part governed. -/
theorem Move.governed {bs : List Block} (h : Move true bs s t) (g : s.Governed) : t.Governed := h.inputs.governed g

/-- A move that leaves the Policy Store alone keeps the banks apart. -/
theorem Move.banksApart {bs : List Block} (h : Move false bs s t) (hb : Block.policy ∉ bs) (g : s.BanksApart) :
    t.BanksApart := by
  have k : t.policy = s.policy := h.onlyChanges .policy hb
  unfold State.BanksApart at *
  rw [k]; exact g

/-! ## Recomputing -/

theorem State.recomputeCeilings_governed (hb : s.BanksApart) (hc : s.ConditionsAgree) : s.recomputeCeilings.Governed :=
  ⟨hb, hc, rfl, rfl, fun _ => rfl⟩

theorem State.recomputeBoarding_governed (hb : s.BanksApart) : s.recomputeBoarding.Governed :=
  State.recomputeCeilings_governed hb ⟨rfl, rfl, rfl⟩

theorem State.setLatch_governed (b : Byte) (g : s.Governed) : (s.setLatch b).Governed := by
  unfold State.setLatch
  split
  · exact g
  · have k := (Move.governed (.post (bs := [.notices]) s _ _ _ _ _ _ _ (by decide)) g :
      (s.post .stop false b ((be2 s.governor.ceilingF).getD 0 0) ((be2 s.governor.ceilingF).getD 1 0)
        ((be2 s.governor.ceilingV).getD 0 0) ((be2 s.governor.ceilingV).getD 1 0)).Governed)
    exact State.recomputeCeilings_governed k.1 k.2.1

theorem State.clearLatch_governed (g : s.Governed) : s.clearLatch.Governed := State.recomputeCeilings_governed g.1 g.2.1

/-! ## The level -/

theorem State.changeLevel_governed (l : Level) (hb : s.BanksApart) (hc : s.ConditionsAgree) :
    (s.changeLevel l).Governed := by
  have f := (s.withWind { s.wind with level := l, countdown := s.active.holdDown l }).post_frame .level
  have hp : ∀ b d0 d1 d2 d3, (((s.withWind { s.wind with level := l, countdown := s.active.holdDown l }).post
      .level false b d0 d1 d2 d3).recomputeCeilings).Governed := by
    intro b d0 d1 d2 d3
    have k : (s.withWind { s.wind with level := l, countdown := s.active.holdDown l }).SameInputs _ :=
      .of_frame ((f false b d0 d1 d2 d3).mono (by decide))
    exact State.recomputeCeilings_governed (k.banksApart hb) (k.conditionsAgree hc)
  exact (Move.refreshBeacons _).governed ((Move.sweepLevel _).governed (hp ..))

theorem State.raiseLevel_governed (l : Level) (g : s.Governed) : (s.raiseLevel l).Governed := by
  unfold State.raiseLevel
  split
  · exact State.changeLevel_governed l g.1 g.2.1
  · exact g

theorem State.applyFloors_governed (g : s.Governed) : s.applyFloors.Governed := State.raiseLevel_governed _ g

theorem State.countdown_governed (n : Nat) (g : s.Governed) : (s.withWind { s.wind with countdown := n }).Governed :=
  (Move.withWind (q := true) s { s.wind with countdown := n } (List.Subset.refl [Block.wind]) fun _ => ⟨rfl, rfl⟩).governed g

theorem State.tickLevel_governed (g : s.Governed) : s.tickLevel.Governed := by
  unfold State.tickLevel
  split
  · exact State.changeLevel_governed _ g.1 g.2.1
  · unfold State.descend
    split
    · exact State.countdown_governed 0 g
    · split
      · split
        · exact State.changeLevel_governed _ g.1 g.2.1
        · exact State.countdown_governed _ g
      · exact State.countdown_governed _ g

theorem State.windTick_governed (g : s.Governed) : s.windTick.Governed := by
  have k : Move true [.wind, .notices] s (channelIndices.foldl State.tickChannel s).recomputeWind :=
    .trans (.foldl (fun t c => Move.tickChannel t c) _ _) ((Move.recomputeWind _).mono (by decide))
  exact State.tickLevel_governed (k.governed g)

theorem State.holdDownFall_governed (g : s.Governed) : s.holdDownFall.Governed := by
  unfold State.holdDownFall
  split
  · exact State.changeLevel_governed _ g.1 g.2.1
  · exact g

theorem State.channelStep_governed (c : ChannelIx) (st : ChannelState) (g : s.Governed) :
    (s.channelStep c st).Governed := by
  unfold State.channelStep
  dsimp only
  split
  · exact State.applyFloors_governed ((Move.recomputeWind _).governed ((Move.setChannel s c _).governed g))
  · exact g

theorem State.secondTick_governed (b : Bool) (g : s.Governed) : (s.secondTick b).Governed := by
  unfold State.secondTick
  split
  · exact State.windTick_governed ((Move.clockTick s).governed g)
  · exact (Move.clockTick _).governed (State.windTick_governed g)

/-! ## Grants, doors and the rim -/

theorem State.endGrant_governed (b : Berth) (x : Grant) (g : s.Governed) : (s.endGrant b x).Governed := by
  refine State.recomputeBoarding_governed ?_
  exact Move.banksApart (Move.sweepCycle _ _) (by decide)
    (Move.banksApart (Move.registerCycle _ _ _) (by decide) g.1)

theorem State.boardDoor_governed (c : Nat) (d : DoorState) (hb : s.BanksApart) : (s.boardDoor c d).Governed := by
  unfold State.boardDoor
  split
  · split
    · refine State.recomputeBoarding_governed ?_
      exact Move.banksApart (Move.sweepCycle _ _) (by decide)
        (Move.banksApart (Move.registerCycle _ _ _) (by decide) hb)
    · exact State.recomputeBoarding_governed hb
  · exact State.recomputeBoarding_governed hb

theorem State.takeDoor_governed (c : Nat) (d : DoorState) (g : s.Governed) : (s.takeDoor c d).Governed := by
  have k : (s.withCabin c { s.cabin c with door := d }).BanksApart := by
    unfold State.BanksApart
    rw [State.withCabin_policy]
    exact g.1
  unfold State.takeDoor
  dsimp only
  split
  · exact State.boardDoor_governed c d k
  · exact State.boardDoor_governed c d (Move.banksApart (Move.postCabin (bs := [.notices]) _ _ _ (by decide)) (by decide) k)

theorem State.screenDoor_governed (c : Nat) (r : Bool) (k : GrantKind) (f : Frame) (g : s.Governed) :
    (s.screenDoor c r k f).Governed := by
  unfold State.screenDoor
  split
  · split
    · refine (Move.offer (bs := [.path, .notices]) _ _ _ (by decide)).governed ?_
      exact State.recomputeBoarding_governed g.1
    · exact (Move.refuseOrder s _ f).governed g
  · exact (Move.offer (bs := [.path, .notices]) s _ _ (by decide)).governed g

theorem State.boardWithdraw_governed (c : Nat) (b : Berth) (g : s.Governed) : (s.boardWithdraw c b).Governed := by
  unfold State.boardWithdraw
  split
  · exact g
  · dsimp only
    split
    · refine State.recomputeBoarding_governed ?_
      have k : Move true [.path] s (s.originateOrder (.doorLock b) .hub codeDoorOrder [byte c, 1, 0]) :=
        .originateOrder s _ _ _ _ (by decide)
      split
      · exact k.inputs.banksApart g.1
      · exact (k.trans (Move.closeEntry _ b (by decide))).inputs.banksApart g.1
    · exact g

theorem State.boardExit_governed (c : Nat) (b : Berth) (g : s.Governed) : (s.boardExit c b).Governed := by
  unfold State.boardExit
  split
  · exact g
  · split
    · split
      · exact State.endGrant_governed b _ g
      · exact State.recomputeBoarding_governed g.1
    · exact g

theorem State.takeZoneEvent_governed (e : ZoneEvent) (g : s.Governed) : (s.takeZoneEvent e).Governed := by
  cases e with
  | exit c b _ => exact (Move.sweepExit _ c b).governed (State.boardExit_governed c b ((Move.stampExit s c).governed g))
  | entry c _ => exact (Move.setServed s c false).governed g
  | withdraw c b => exact State.boardWithdraw_governed c b g

theorem State.foldl_zoneEvents_governed (l : List ZoneEvent) (g : s.Governed) :
    (l.foldl State.takeZoneEvent s).Governed := by
  induction l generalizing s with
  | nil => exact g
  | cons e l ih => exact ih (State.takeZoneEvent_governed e g)

theorem State.withRim_governed (x : RimTracker) (h : x.known = s.rim.known) (g : s.Governed) : (s.withRim x).Governed :=
  (Move.withRim (q := true) s x (List.Subset.refl [Block.rim]) fun _ => h).governed g

theorem State.takeGoodRim_governed (p : Nat) (v : Int) (g : s.Governed) : (s.takeGoodRim p v).Governed := by
  unfold State.takeGoodRim
  dsimp only
  refine State.withRim_governed _ rfl ?_
  exact State.foldl_zoneEvents_governed _ (State.recomputeCeilings_governed g.1 g.2.1)

theorem State.losePosition_governed (g : s.Governed) : s.losePosition.Governed :=
  State.recomputeCeilings_governed g.1 g.2.1

theorem State.advance_governed (ms : Nat) (g : s.Governed) : (s.advance ms).Governed :=
  (Move.advance (bs := [.clock, .rim, .governor, .policy, .notices]) s ms (by decide)).governed g

theorem State.encoderExpiry_governed (g : s.Governed) : s.encoderExpiry.Governed := by
  unfold State.encoderExpiry
  split
  · exact g
  · exact State.losePosition_governed (State.advance_governed _ g)

/-! ## Banks, commits and restarts -/

theorem State.takeBank_governed (hb : s.BanksApart) : s.takeBank.Governed := by
  refine State.recomputeBoarding_governed ?_
  exact Move.banksApart (Move.windBankChange _) (by decide) (Move.banksApart (Move.rimBankChange s) (by decide) hb)

theorem State.warmRestart_governed (hb : s.BanksApart) : s.warmRestart.Governed := by
  have k : ∀ (u : State) (x : SweepScheduler), u.policy = s.policy →
      (u.windRestart.withSweep x).recomputeBoarding.endRestart.Governed := by
    intro u x h
    refine (Move.endRestart (bs := [.notices]) _ (by decide)).governed (State.recomputeBoarding_governed ?_)
    have hw : u.windRestart.policy = u.policy := (Move.windRestart u).onlyChanges .policy (by decide)
    unfold State.BanksApart
    rw [State.withSweep_policy, hw, h]
    exact hb
  exact k _ _ rfl

/-- A Policy Store with the same banks, active and staging, and a commit bank that is none or the staging bank. -/
theorem State.withPolicy_governed (p : PolicyStore) (g : s.Governed) (ha : p.active = s.policy.active)
    (h1 : p.bank1 = s.policy.bank1) (h2 : p.bank2 = s.policy.bank2) (hs : p.staging = s.policy.staging)
    (hc : p.commitBank = none ∨ p.commitBank = some p.staging) : (s.withPolicy p).Governed := by
  have k : (s.withPolicy p).active = s.active := by
    unfold State.active State.bank
    simp only [State.withPolicy_policy, ha, h1, h2]
  obtain ⟨g1, g2, g3⟩ := g
  refine ⟨⟨?_, hc⟩, ?_, ?_⟩
  · simp only [State.withPolicy_policy]; rw [ha, hs]; exact g1.1
  · have e : (s.withPolicy p).creepValueNow = s.creepValueNow := by
      unfold State.creepValueNow State.creepCeilings
      rw [k]; rfl
    exact ⟨g2.1, g2.2.1, g2.2.2.trans e.symm⟩
  · have e : (s.withPolicy p).forwardNow = s.forwardNow := by
      unfold State.forwardNow State.boardCeiling State.positionCeiling
      rw [k]; rfl
    have f : (s.withPolicy p).reverseNow = s.reverseNow := by
      unfold State.reverseNow State.reversePermitted
      rw [k, e]; rfl
    refine ⟨g3.1.trans e.symm, g3.2.1.trans f.symm, fun h => ?_⟩
    rw [e, f]
    exact g3.2.2 h

theorem State.carryOutDeferred_governed (g : s.Governed) : s.carryOutDeferred.Governed := by
  unfold State.carryOutDeferred
  split
  · exact State.warmRestart_governed g.1
  · exact g

theorem State.postCommit_governed (e : CommitEnd) (g : s.Governed) : (s.postCommit e).Governed := by
  unfold State.postCommit
  dsimp only
  split <;> exact (Move.post (bs := [.notices]) s _ _ _ _ _ _ _ (by decide)).governed g

theorem State.finishCommit_governed (e : CommitEnd) (g : s.Governed) : (s.finishCommit e).Governed :=
  State.postCommit_governed e (State.carryOutDeferred_governed
    (State.withPolicy_governed _ g rfl rfl rfl rfl (.inl rfl)))

theorem LoadBank.other_ne (b : LoadBank) : b.toBankNo ≠ b.other.toBankNo := by cases b <;> decide

theorem State.swapBanks_governed (g : s.Governed) : s.swapBanks.Governed := by
  unfold State.swapBanks
  split
  · exact g
  · next b _ =>
    dsimp only
    have h : (s.withPolicy (s.policy.swapTo b)).BanksApart := ⟨b.other_ne, .inl rfl⟩
    split
    · exact State.postCommit_governed _ (State.carryOutDeferred_governed (State.takeBank_governed h))
    · exact State.takeBank_governed (Move.banksApart (Move.postCommit _ _) (by decide) h)

theorem State.trySwap_governed (g : s.Governed) : s.trySwap.Governed := by
  unfold State.trySwap
  split
  · exact State.swapBanks_governed g
  · exact g

theorem State.afterGrants_governed (b : State) (g : s.Governed) : (s.afterGrants b).Governed := by
  unfold State.afterGrants
  split
  · exact State.trySwap_governed g
  · exact g

theorem State.walkCompletion_governed (w : Nat) (g : s.Governed) : (s.walkCompletion w).Governed := by
  unfold State.walkCompletion
  split
  · split
    · exact State.finishCommit_governed _ g
    · exact State.trySwap_governed (State.withPolicy_governed _ g rfl rfl rfl rfl g.1.2)
  · exact g

theorem State.commitExpiry_governed (g : s.Governed) : s.commitExpiry.Governed := by
  unfold State.commitExpiry
  split
  · exact g
  · split
    · exact State.finishCommit_governed _ (State.advance_governed _ g)
    · exact g

theorem State.toFloor_governed (hb : s.BanksApart) (g : s.policy.active = .floor → s.Governed) : s.toFloor.Governed := by
  unfold State.toFloor
  split
  · next h => exact g h
  · refine State.takeBank_governed ⟨?_, hb.2⟩
    simp only [State.withPolicy_policy]
    cases s.policy.staging <;> decide

theorem State.revert_governed (g : s.Governed) : s.revert.Governed := by
  have h := State.withPolicy_governed s.policy.endCommit g rfl rfl rfl rfl (.inl rfl)
  unfold State.revert
  split
  · dsimp only
    split
    · exact State.postCommit_governed _ (State.carryOutDeferred_governed (State.toFloor_governed h.1 fun _ => h))
    · have k := State.postCommit_governed (CommitEnd.aborted s.policy.commit (some s.policy.active)) h
      exact State.toFloor_governed k.1 fun _ => k
  · exact State.toFloor_governed g.1 fun _ => g

/-! ## Frames -/

theorem State.toScreen_governed (f : Frame) (g : s.Governed) : (s.toScreen f).Governed := by
  have k : (s.offerForward .field f).Governed := (Move.offer (bs := [.path, .notices]) s _ _ (by decide)).governed g
  unfold State.toScreen
  split
  · split
    · exact (Move.screenSpeed s _ _ _ f).governed g
    · exact k
  · split
    · exact (Move.screenGate s _ _ _ f).governed g
    · exact k
  · exact State.screenDoor_governed _ _ _ f g
  · exact k

theorem State.treat_governed (p : Port) (f : Frame) (g : s.Governed) : (s.treat p f).Governed := by
  have k : ∀ p, (s.offerForward p f).Governed := fun p =>
    (Move.offer (bs := [.path, .notices]) s p f (by decide)).governed g
  have r : ∀ x, (s.postRefused x false f).Governed := fun x =>
    (Move.post (bs := [.notices]) s _ _ _ _ _ _ _ (by decide)).governed g
  have u : ∀ x, (s.refuseUnscreened x f).Governed := fun x => (Move.refuseUnscreened s x f).governed g
  unfold State.treat
  dsimp only
  split
  · exact k _
  · split
    · exact u _
    · exact r _
  · split
    · unfold State.screenOrder
      split
      · exact u _
      · split
        · exact u _
        · exact State.toScreen_governed f g
    · split
      · exact k _
      · exact r _

theorem State.handOver_governed (b : Bool) (f : Frame) (g : s.Governed) : (s.handOver b f).Governed := by
  have n : (s.noteAboveN b f).Governed := by
    unfold State.noteAboveN
    split
    · exact g
    · exact (Move.post (bs := [.notices]) s _ _ _ _ _ _ _ (by decide)).governed g
  unfold State.handOver
  split
  · split
    · exact State.afterGrants_governed s (State.takeGoodRim_governed _ _ g)
    · exact State.losePosition_governed g
  · split
    · exact (Move.takeSample s _ _ _).governed g
    · exact g
  · split
    · exact State.afterGrants_governed s (State.takeDoor_governed _ _ g)
    · exact n
  · split
    · exact (Move.takeCount s _ _ _ _ f).governed g
    · exact n
  · exact (Move.takeGates s _ _ _).governed g
  · exact g

/-- The close of an event keeps the part governed. -/
theorem State.close_governed (g : s.Governed) : s.close.Governed :=
  (State.SameInputs.of_frame (s.close_frame.mono (by decide))).governed g

end Sys2Proof.Machine
end

