-- ==== Sys2Proof/Laws/Steps.lean ====
section
/-! SUPPORT. The shapes of a command and of a step, said once: which body an event has, that a request command is the request its
payload spells, and how a property that every body and every close keeps is kept by every command and every step. -/

namespace Sys2Proof.Machine

/-! ## Requests -/

/-- The two bytes of a 16-bit value, put together again. -/
theorem append_extract (v : BitVec 16) : (v.extractLsb' 8 8 ++ v.extractLsb' 0 8 : BitVec 16) = v := by
  apply BitVec.eq_of_toNat_eq
  have h := v.isLt
  simp only [BitVec.toNat_append, BitVec.extractLsb'_toNat, Nat.shiftRight_eq_div_pow]
  rw [← Nat.shiftLeft_add_eq_or_of_lt (by omega), Nat.shiftLeft_eq]
  omega

/-- A request command is the taking of the request and the arguments it stands for (R13, R176). -/
theorem exec_request {c : Instr} {r : RequestCode} {args : List Byte} {who : Requester} (hr : requestOf c = some (r, args))
    (hw : c.requester = some who) (s : State) :
    exec c s = .next (s.takeEvent fun s => s.answer who fun s => s.handleListed r args) := by
  cases c <;> simp only [requestOf, Instr.requester, Option.some.injEq, Prod.mk.injEq, reduceCtorEq] at hr hw
  all_goals (obtain ⟨rfl, rfl⟩ := hr; subst hw; try rfl)
  all_goals
    simp only [exec, execEnvelopeWrite, State.handleListed, State.args3, append_extract]

/-- A request of a part at work with room: its effect, its reply, and the close (R13, R176). -/
theorem exec_request_takes {c : Instr} {r : RequestCode} {args : List Byte} {who : Requester} {s : State}
    (hr : requestOf c = some (r, args)) (hw : c.requester = some who) (h : s.Takes) :
    exec c s = .next ((s.handleListed r args).1.enqueuePart who.node codeReply
      ((s.handleListed r args).2.payload who.tag)).close := by
  rw [exec_request hr hw, State.takeEvent_running h.1, State.answer_room h.2]

/-! ## The events -/

/-- The bodies of the events that are not requests. -/
inductive EventBody : (State → State) → Prop
  | arrive (p : Port) (bs : List Byte) (b : Bool) : EventBody fun s => s.arrive p bs b
  | choose (p : Port) : EventBody fun s => s.choose p
  | complete (p : Port) : EventBody fun s => (s.endTransmission p).choose p
  | build : EventBody State.buildNotices
  | stop : EventBody fun s => s.setLatch 0
  | release : EventBody id
  | quarter : EventBody State.quarter
  | second (b : Bool) : EventBody fun s => s.secondTick b
  | holdDown : EventBody State.holdDownFall
  | channel (c : ChannelIx) (st : ChannelState) : EventBody fun s => s.channelStep c st
  | encoder : EventBody State.encoderExpiry
  | stale (d : DriveIx) : EventBody fun s => s.staleExpiry d
  | flush : EventBody State.flushExpiry
  | commit : EventBody State.commitExpiry
  | walk (w : Nat) : EventBody fun s => s.walkCompletion w
  | swap : EventBody State.trySwap
  | deferred : EventBody State.tryDeferred

/-- What a command does: an event body or a request, taken by a part at work; a change of the STOP_IN pin and its event; a reset;
or the loss of power. -/
theorem exec_cases (c : Instr) (s : State) :
    (∃ f, EventBody f ∧ exec c s = .next (s.takeEvent f)) ∨
    (∃ r args who, requestOf c = some (r, args) ∧ c.requester = some who ∧
      exec c s = .next (s.takeEvent fun s => s.answer who fun s => s.handleListed r args)) ∨
    (∃ f v, EventBody f ∧ exec c s = .next ((s.withStopIn v).takeEvent f)) ∨
    (∃ cause, exec c s = .next (s.coldReset cause)) ∨
    (∃ m, exec c s = .next (s.leaveReset m)) ∨
    exec c s = .next s.losePower := by
  cases c with
  | frameArrival p b x => exact .inl ⟨_, .arrive p b x, rfl⟩
  | transmitStart p => exact .inl ⟨_, .choose p, rfl⟩
  | transmitCompletion p => exact .inl ⟨_, .complete p, rfl⟩
  | noticeFrameBuild => exact .inl ⟨_, .build, rfl⟩
  | coldReset cause => exact .inr (.inr (.inr (.inl ⟨cause, rfl⟩)))
  | stopInAssertion => exact .inr (.inr (.inl ⟨_, true, .stop, rfl⟩))
  | quarterTick => exact .inl ⟨_, .quarter, rfl⟩
  | rideSecondTick b => exact .inl ⟨_, .second b, rfl⟩
  | holdDownExpiry => exact .inl ⟨_, .holdDown, rfl⟩
  | channelStale ch => exact .inl ⟨_, .channel ch .stale, rfl⟩
  | channelLive ch => exact .inl ⟨_, .channel ch .live, rfl⟩
  | encoderWatchExpiry => exact .inl ⟨_, .encoder, rfl⟩
  | stalenessTimerExpiry d => exact .inl ⟨_, .stale d, rfl⟩
  | flushTimerExpiry => exact .inl ⟨_, .flush, rfl⟩
  | commitTimerExpiry => exact .inl ⟨_, .commit, rfl⟩
  | commitWalkCompletion w => exact .inl ⟨_, .walk w, rfl⟩
  | swap => exact .inl ⟨_, .swap, rfl⟩
  | deferredWarmRestart => exact .inl ⟨_, .deferred, rfl⟩
  | stopInRelease => exact .inr (.inr (.inl ⟨_, false, .release, rfl⟩))
  | endOfColdReset m => exact .inr (.inr (.inr (.inr (.inl ⟨m, rfl⟩))))
  | powerLoss => exact .inr (.inr (.inr (.inr (.inr rfl))))
  | _ => exact .inr (.inl ⟨_, _, _, rfl, rfl, exec_request rfl rfl s⟩)

/-- A property `P` of the states between events is kept by every command, if every body takes it to a property `Q`, the close
takes `Q` back to it, and the pins, the resets and the loss of power keep it. -/
theorem exec_keeps {P Q : State → Prop} (hclose : ∀ s, Q s → P s.close)
    (hbody : ∀ f, EventBody f → ∀ s, P s → Q (f s))
    (hrequest : ∀ r args who s, P s → Q (s.answer who fun s => s.handleListed r args))
    (hstop : ∀ s v, P s → P (s.withStopIn v)) (hcold : ∀ s, P s → P s.enterReset)
    (hleave : ∀ s m, P s → P (s.leaveReset m)) (hlose : ∀ s, P s → P s.losePower)
    {c : Instr} {s t : State} (h : exec c s = .next t) (hs : P s) : P t := by
  have take : ∀ f : State → State, (∀ s, P s → Q (f s)) → ∀ s, P s → P (s.takeEvent f) := by
    intro f hf s hs
    by_cases hp : s.phase = .running
    · rw [State.takeEvent_running hp]; exact hclose _ (hf s hs)
    · rw [State.takeEvent_idle hp]; exact hs
  rcases exec_cases c s with ⟨f, hf, e⟩ | ⟨r, args, who, -, -, e⟩ | ⟨f, v, hf, e⟩ | ⟨cause, e⟩ | ⟨m, e⟩ | e <;>
    rw [e] at h <;> cases h
  · exact take f (hbody f hf) s hs
  · exact take _ (hrequest r args who) s hs
  · exact take f (hbody f hf) _ (hstop s v hs)
  · cases cause with
    | powerOn => exact hcold s hs
    | resetPin =>
        by_cases hp : s.phase = .unpowered
        · simpa [State.coldReset, hp] using hs
        · simpa [State.coldReset, hp] using hcold s hs
  · exact hleave s m hs
  · exact hlose s hs

/-- A property that every command keeps, that the passing of a millisecond keeps, and that does not rest on the queue of
commands, is kept by every step. -/
theorem step_keeps {P : State → Prop} (hqueue : ∀ (s : State) (q : List Instr), P s → P { s with pending := q })
    (hexec : ∀ c s t, exec c s = .next t → P s → P t) (htime : ∀ s, P s → P (s.advance 1))
    {s t : State} (h : step s = .next t) (hs : P s) : P t := by
  unfold step at h
  split at h
  · cases h
    unfold State.idle
    split
    · exact hqueue (s.advance 1) _ (htime s hs)
    · exact hs
    · exact hs
  · next c rest _ => exact hexec c _ t h (hqueue s rest hs)

end Sys2Proof.Machine
end

