-- ==== Sys2Proof/Laws/Bodies.lean ====
section
/-! SUPPORT. What every event body and every request keeps: the bounds of the queues, and the agreement of the ceilings with their
inputs. -/

namespace Sys2Proof.Machine

variable {s : State}

/-! ## Requests and frames to the own node -/

/-- The queues' bounds are kept by an answered request (R13). -/
theorem State.answer_queues (who : Requester) {f : State → Handled} {bs : List Block} (h : Move false bs s (f s).1)
    (hp : s.path.Bounded) (hn : s.notices.Sound) :
    (s.answer who f).path.Bounded ∧ (s.answer who f).notices.Sound := by
  by_cases hr : s.path.part.length < partRoom
  · rw [State.answer_room hr]
    have hl : (f s).1.path.part.length < 8 := lt_of_le_of_lt h.part_le hr
    exact ⟨State.enqueuePart_bounded _ _ _ hl (h.path_bounded hp), h.notices_sound hn⟩
  · rw [State.answer_full hr]
    exact ⟨hp, hn⟩

theorem State.takeRequest_queues (f : Frame) (hp : s.path.Bounded) (hn : s.notices.Sound) :
    (s.takeRequest f).path.Bounded ∧ (s.takeRequest f).notices.Sound := by
  unfold State.takeRequest
  split
  · exact State.answer_queues _ (Move.handleRequest s _ _) hp hn
  · exact ⟨hp, hn⟩

theorem State.post_queues (k : NoticeKind) (m : Bool) (b d0 d1 d2 d3 : Byte) (hp : s.path.Bounded) (hn : s.notices.Sound) :
    (s.post k m b d0 d1 d2 d3).path.Bounded ∧ (s.post k m b d0 d1 d2 d3).notices.Sound :=
  ⟨by rw [State.post_path]; exact hp, State.deliver_sound _ hn⟩

theorem State.takeOwn_queues (p : Port) (f : Frame) (hp : s.path.Bounded) (hn : s.notices.Sound) :
    (s.takeOwn p f).path.Bounded ∧ (s.takeOwn p f).notices.Sound := by
  unfold State.takeOwn
  split
  · split
    · exact State.takeRequest_queues f hp hn
    · exact State.post_queues _ _ _ _ _ _ _ hp hn
  · exact State.post_queues _ _ _ _ _ _ _ hp hn
  · exact State.post_queues _ _ _ _ _ _ _ hp hn

theorem State.sortFrame_queues (p : Port) (f : Frame) (hp : s.path.Bounded) (hn : s.notices.Sound) :
    (s.sortFrame p f).path.Bounded ∧ (s.sortFrame p f).notices.Sound := by
  have h : ∀ t : State, t = (if f.dest = s.envelope.own then s.takeOwn p f else s.treat p f) →
      t.path.Bounded ∧ t.notices.Sound := by
    rintro t rfl
    split
    · exact State.takeOwn_queues p f hp hn
    · exact ⟨(Move.treat s p f).path_bounded hp, (Move.treat s p f).notices_sound hn⟩
  unfold State.sortFrame
  cases p with
  | supervisor => exact h _ rfl
  | field =>
      obtain ⟨h1, h2⟩ := h _ rfl
      exact ⟨(Move.handOver _ _ f).path_bounded h1, (Move.handOver _ _ f).notices_sound h2⟩

theorem State.arrive_queues (p : Port) (bs : List Byte) (b : Bool) (hp : s.path.Bounded) (hn : s.notices.Sound) :
    (s.arrive p bs b).path.Bounded ∧ (s.arrive p bs b).notices.Sound := by
  have hp' : (s.withPath (s.path.setStaging p Staging.empty)).path.Bounded := FramePath.setStaging_bounded p _ hp
  have hn' : (s.withPath (s.path.setStaging p Staging.empty)).notices.Sound := hn
  unfold State.arrive State.judgeArrival
  split
  · exact State.post_queues _ _ _ _ _ _ _ hp' hn'
  · exact State.post_queues _ _ _ _ _ _ _ hp' hn'
  · exact State.sortFrame_queues p _ hp' hn'

theorem State.choose_notices (s : State) (p : Port) : (s.choose p).notices = s.notices :=
  s.choose_frame p .notices (by decide)

/-! ## Event bodies -/

/-- Every event body keeps the queues' bounds. -/
theorem EventBody.queues {f : State → State} (h : EventBody f) (hp : s.path.Bounded) (hn : s.notices.Sound) :
    (f s).path.Bounded ∧ (f s).notices.Sound := by
  have of {bs : List Block} {t : State} (m : Move false bs s t) : t.path.Bounded ∧ t.notices.Sound :=
    ⟨m.path_bounded hp, m.notices_sound hn⟩
  cases h with
  | arrive p bs b => exact State.arrive_queues p bs b hp hn
  | choose p => exact ⟨State.choose_bounded p hp, by rw [State.choose_notices]; exact hn⟩
  | complete p =>
      have : (s.endTransmission p).path.Bounded := by
        cases p <;> exact ⟨hp.supForward, hp.fldForward, hp.part, hp.origin, hp.runCount⟩
      refine ⟨State.choose_bounded p this, ?_⟩
      rw [State.choose_notices]
      cases p <;> exact hn
  | build => exact ⟨State.buildNotices_bounded hp, State.buildNotices_sound hn⟩
  | stop => exact of (Move.setLatch s 0)
  | release => exact ⟨hp, hn⟩
  | quarter => exact of (Move.quarter s)
  | second b => exact of (Move.secondTick s b)
  | holdDown => exact of (Move.holdDownFall s)
  | channel c st => exact of (Move.channelStep s c st)
  | encoder => exact of (Move.encoderExpiry s)
  | stale d => exact of (Move.staleExpiry s d)
  | flush => exact of (Move.flushExpiry s)
  | commit => exact of (Move.commitExpiry s)
  | walk w => exact of (Move.walkCompletion s w)
  | swap => exact of (Move.trySwap s)
  | deferred => exact of (Move.tryDeferred s)

/-- A listed request keeps the queues' bounds. -/
theorem State.request_queues (r : RequestCode) (args : List Byte) (who : Requester) (hp : s.path.Bounded)
    (hn : s.notices.Sound) :
    (s.answer who fun s => s.handleListed r args).path.Bounded ∧
      (s.answer who fun s => s.handleListed r args).notices.Sound :=
  State.answer_queues who (f := fun s => s.handleListed r args) (Move.handleListed s r args) hp hn

/-! ## The ceilings -/

theorem State.withFloor_governed (l : Level) (g : s.Governed) : (s.withWind { s.wind with floor := l }).Governed :=
  ⟨g.1, ⟨g.2.1.1, g.2.1.2.1, g.2.1.2.2⟩, ⟨g.2.2.1, g.2.2.2.1, g.2.2.2.2⟩⟩

theorem State.doSetOperatorFloor_governed (l : Byte) (g : s.Governed) : (s.doSetOperatorFloor l).1.Governed := by
  unfold State.doSetOperatorFloor
  split
  · exact g
  · exact State.applyFloors_governed (State.withFloor_governed _ g)

/-- Replacing the staging bank leaves the bank in force as it is. -/
theorem State.setBank_active {b : LoadBank} (hb : s.policy.active ≠ b.toBankNo) (k : Bank) :
    (s.withPolicy (s.policy.setBank b k)).active = s.active := by
  have e : (s.policy.setBank b k).active = s.policy.active := by cases b <;> rfl
  unfold State.active
  simp only [State.withPolicy_policy, e]
  cases b <;> cases ha : s.policy.active <;> first | rfl | exact absurd ha hb

/-- A Policy Store with the same bank in force and the same staging, and a commit bank that is none or the staging bank. -/
theorem State.withPolicy_active_governed (p : PolicyStore) (g : s.Governed) (ha : p.active = s.policy.active)
    (hk : (s.withPolicy p).active = s.active) (hs : p.staging = s.policy.staging)
    (hc : p.commitBank = none ∨ p.commitBank = some p.staging) : (s.withPolicy p).Governed := by
  have e : (s.withPolicy p).creepValueNow = s.creepValueNow := by
    unfold State.creepValueNow State.creepCeilings
    rw [hk]; rfl
  have e1 : (s.withPolicy p).forwardNow = s.forwardNow := by
    unfold State.forwardNow State.boardCeiling State.positionCeiling
    rw [hk]; rfl
  have e2 : (s.withPolicy p).reverseNow = s.reverseNow := by
    unfold State.reverseNow State.reversePermitted
    rw [hk, e1]; rfl
  refine ⟨⟨?_, hc⟩, ⟨g.2.1.1, g.2.1.2.1, g.2.1.2.2.trans e.symm⟩, g.2.2.1.trans e1.symm, g.2.2.2.1.trans e2.symm, fun h => ?_⟩
  · simp only [State.withPolicy_policy]; rw [ha, hs]; exact g.1.1
  · rw [e1, e2]; exact g.2.2.2.2 h

theorem State.doWriteStaging_governed (b t f c : Byte) (es : List Byte) (g : s.Governed) :
    (s.doWriteStaging b t f c es).1.Governed := by
  unfold State.doWriteStaging
  split
  · exact g
  · split
    · exact g
    · next bk _ =>
      split
      · exact g
      · next hne =>
        have hs : bk = s.policy.staging := not_not.mp hne
        split
        · exact g
        · refine State.withPolicy_active_governed _ g (by cases bk <;> rfl)
            (State.setBank_active (by rw [hs]; exact g.1.1) _) (by cases bk <;> rfl) ?_
          have := g.1.2
          cases bk <;> exact this

theorem State.doCommitStaging_governed (b : Byte) (g : s.Governed) : (s.doCommitStaging b).1.Governed := by
  unfold State.doCommitStaging
  split
  · exact g
  · split
    · exact g
    · next bk _ =>
      split
      · exact g
      · next hne =>
        have hs : bk = s.policy.staging := not_not.mp hne
        exact State.withPolicy_governed _ g rfl rfl rfl rfl (.inr (by rw [hs]))

theorem State.doAbortCommit_governed (g : s.Governed) : s.doAbortCommit.1.Governed := by
  unfold State.doAbortCommit
  split
  · exact State.finishCommit_governed _ g
  · exact g

theorem State.doClearStop_governed (g : s.Governed) : s.doClearStop.1.Governed := by
  unfold State.doClearStop
  split
  · exact g
  · split
    · exact g
    · exact State.clearLatch_governed g

theorem State.doWarmRestart_governed (g : s.Governed) : s.doWarmRestart.1.Governed := by
  unfold State.doWarmRestart
  split
  · exact State.withPolicy_governed _ g rfl rfl rfl rfl g.1.2
  · exact State.warmRestart_governed g.1

theorem State.takeEnvelope_governed (e : Envelope) (hb : s.BanksApart) : (s.takeEnvelope e).Governed := by
  have h : (s.withEnvelope e).recomputeBoarding.Governed := State.recomputeBoarding_governed hb
  unfold State.takeEnvelope
  dsimp only
  split
  · exact h
  · exact Move.governed (Move.finishSweep _ _ _) h

theorem State.doEnvelopeWrite_governed (f : Byte) (v : BitVec 16) (g : s.Governed) :
    (s.doEnvelopeWrite f v).1.Governed := by
  unfold State.doEnvelopeWrite
  split
  · exact g
  · split
    · exact g
    · split
      · exact g
      · split
        · exact State.takeEnvelope_governed _ g.1
        · exact g

theorem State.doEnvelopeLock_governed (g : s.Governed) : s.doEnvelopeLock.1.Governed := by
  unfold State.doEnvelopeLock
  split
  · exact g
  · split
    · exact g
    · split
      · exact g
      · exact g

/-- Every listed request keeps the ceilings those of their inputs. -/
theorem State.handleListed_governed (r : RequestCode) (as : List Byte) (g : s.Governed) : (s.handleListed r as).1.Governed := by
  have q {bs : List Block} {t : State} (m : Move true bs s t) : t.Governed := m.governed g
  cases r <;> simp only [State.handleListed]
  case readDirectory => unfold State.args1; split; exact q (Move.doReadDirectory s _); exact g
  case readTable => unfold State.args4; split; exact q (Move.doReadTable s _ _ _ _); exact g
  case writeStaging => unfold State.argsWrite; split; exact State.doWriteStaging_governed _ _ _ _ _ g; exact g
  case commitStaging => unfold State.args1; split; exact State.doCommitStaging_governed _ g; exact g
  case abortCommit => unfold State.args0; split; exact State.doAbortCommit_governed g; exact g
  case revertToFloor => unfold State.args0; split; exact State.revert_governed g; exact g
  case readStatus => unfold State.args0; split <;> exact g
  case setService => unfold State.args2; split; exact q (Move.doSetService s _ _); exact g
  case setOccupancy => unfold State.args2; split; exact q (Move.doSetOccupancy s _ _); exact g
  case setOperatorFloor => unfold State.args1; split; exact State.doSetOperatorFloor_governed _ g; exact g
  case beginSweep => unfold State.args0; split; exact q (Move.sweepAdd s _ _); exact g
  case endSweep => unfold State.args0; split; exact q (Move.sweepRemove s _ _); exact g
  case openBoarding => unfold State.args0; split; exact q (Move.sweepRemove s _ _); exact g
  case latchStop => unfold State.args0; split; exact State.setLatch_governed 1 g; exact g
  case clearStop => unfold State.args0; split; exact State.doClearStop_governed g; exact g
  case setClock => unfold State.args3; split; exact q (Move.doSetClock s _ _ _); exact g
  case setClosingAlarm => unfold State.args3; split; exact q (Move.doSetClosingAlarm s _ _ _); exact g
  case resumeNotices => unfold State.args0; split; exact q (Move.doResumeNotices s); exact g
  case warmRestart => unfold State.args0; split; exact State.doWarmRestart_governed g; exact g
  case envelopeWrite => unfold State.args3; split; exact State.doEnvelopeWrite_governed _ _ g; exact g
  case envelopeLock => unfold State.args0; split; exact State.doEnvelopeLock_governed g; exact g

theorem State.handleRequest_governed (c : Byte) (as : List Byte) (g : s.Governed) : (s.handleRequest c as).1.Governed := by
  unfold State.handleRequest
  split
  · exact State.handleListed_governed _ _ g
  · exact g

theorem State.enqueuePart_governed (d c : Byte) (p : List Byte) (g : s.Governed) : (s.enqueuePart d c p).Governed :=
  (State.SameInputs.of_frame ((s.enqueuePart_frame d c p).mono (by decide))).governed g

theorem State.answer_governed (who : Requester) {f : State → Handled} (h : (f s).1.Governed) (g : s.Governed) :
    (s.answer who f).Governed := by
  unfold State.answer
  split
  · exact State.enqueuePart_governed _ _ _ h
  · exact g

theorem State.post_governed (k : NoticeKind) (m : Bool) (b d0 d1 d2 d3 : Byte) (g : s.Governed) :
    (s.post k m b d0 d1 d2 d3).Governed :=
  (State.SameInputs.of_frame ((s.post_frame k m b d0 d1 d2 d3).mono (by decide))).governed g

theorem State.takeOwn_governed (p : Port) (f : Frame) (g : s.Governed) : (s.takeOwn p f).Governed := by
  unfold State.takeOwn
  split
  · split
    · unfold State.takeRequest
      split
      · exact State.answer_governed _ (State.handleRequest_governed _ _ g) g
      · exact g
    · exact State.post_governed _ _ _ _ _ _ _ g
  · exact State.post_governed _ _ _ _ _ _ _ g
  · exact State.post_governed _ _ _ _ _ _ _ g

theorem State.sortFrame_governed (p : Port) (f : Frame) (g : s.Governed) : (s.sortFrame p f).Governed := by
  have h : (if f.dest = s.envelope.own then s.takeOwn p f else s.treat p f).Governed := by
    split
    · exact State.takeOwn_governed p f g
    · exact State.treat_governed p f g
  unfold State.sortFrame
  cases p with
  | supervisor => exact h
  | field => exact State.handOver_governed _ _ h

theorem State.arrive_governed (p : Port) (bs : List Byte) (b : Bool) (g : s.Governed) : (s.arrive p bs b).Governed := by
  have g' : (s.withPath (s.path.setStaging p Staging.empty)).Governed :=
    (Move.staging (bs := [.path]) s p _ (by decide)).governed g
  unfold State.arrive State.judgeArrival
  split
  · exact State.post_governed _ _ _ _ _ _ _ g'
  · exact State.post_governed _ _ _ _ _ _ _ g'
  · exact State.sortFrame_governed p _ g'

/-- Every event body keeps the ceilings those of their inputs. -/
theorem EventBody.governed {f : State → State} (h : EventBody f) (g : s.Governed) : (f s).Governed := by
  have q {bs : List Block} {t : State} (m : Move true bs s t) : t.Governed := m.governed g
  have p (s : State) (g : s.Governed) (x : Port) : (s.choose x).Governed :=
    (State.SameInputs.of_frame ((s.choose_frame x).mono (by decide))).governed g
  cases h with
  | arrive x bs b => exact State.arrive_governed x bs b g
  | choose x => exact p s g x
  | complete x =>
      refine p _ ?_ x
      cases x <;> exact (Move.keep (q := true) (bs := [.path]) (t := s) (.refl _ _) rfl rfl fun _ => .refl _).governed g
  | build => exact (State.SameInputs.of_frame (s.buildNotices_frame.mono (by decide))).governed g
  | stop => exact State.setLatch_governed 0 g
  | release => exact g
  | quarter => exact q (Move.quarter s)
  | second b => exact State.secondTick_governed b g
  | holdDown => exact State.holdDownFall_governed g
  | channel c st => exact State.channelStep_governed c st g
  | encoder => exact State.encoderExpiry_governed g
  | stale d => exact q (Move.staleExpiry s d)
  | flush => exact q (Move.flushExpiry s)
  | commit => exact State.commitExpiry_governed g
  | walk w => exact State.walkCompletion_governed w g
  | swap => exact State.trySwap_governed g
  | deferred =>
      show s.tryDeferred.Governed
      unfold State.tryDeferred
      split
      · exact g
      · exact State.carryOutDeferred_governed g

end Sys2Proof.Machine
end

