-- ==== Sys2Proof/Laws/PerInstr.lean ====
section
/-! SUPPORT. A law of the commands as syntax, one lemma a constructor: the REQUEST payload of a well-formed request command has
the length a REQUEST may have, and the request's code, tag and argument bytes are read back from it (R20, R21). A command
that no request carries has no such payload. -/

namespace Sys2Proof.Laws.RequestLaw

open Sys2Proof.Machine

/-- A well-formed command's REQUEST payload, if it has one, is 3 to 48 bytes long, and gives back the command's request, its
tag and its argument bytes. -/
def Statement (i : Instr) : Prop :=
  i.wellFormed = true → ∀ p : List Byte, requestPayload i = some p →
    payloadOk .request p = true ∧
      ∃ (r : RequestCode) (args : List Byte) (who : Requester), requestOf i = some (r, args) ∧ i.requester = some who ∧
        RequestCode.ofCode (p.getD 0 0).toNat = some r ∧ (p.getD 1 0 ++ p.getD 2 0 : BitVec 16) = who.tag ∧ p.drop 3 = args

/-- A request's code names it. -/
theorem ofCode_code (r : RequestCode) : RequestCode.ofCode (byte r.code).toNat = some r := by cases r <;> decide

/-- The two bytes of a tag are the tag. -/
theorem tag_bytes (t : BitVec 16) : (byte (t.toNat / 256) ++ byte t.toNat : BitVec 16) = t := by
  apply BitVec.eq_of_toNat_eq
  have h := t.isLt
  simp only [byte, BitVec.toNat_append, BitVec.toNat_ofNat]
  rw [← Nat.shiftLeft_add_eq_or_of_lt (by omega), Nat.shiftLeft_eq]
  omega

/-- The law for a command that carries a request of few enough argument bytes. -/
theorem of_request {i : Instr} {r : RequestCode} {args : List Byte} {who : Requester} (hr : requestOf i = some (r, args))
    (hw : i.requester = some who) (hl : i.wellFormed = true → args.length ≤ 45) : Statement i := by
  intro h p hp
  simp only [requestPayload, hr, hw, be2, List.cons_append, List.nil_append, Option.some.injEq] at hp
  subst hp
  refine ⟨?_, r, args, who, hr, hw, ofCode_code r, tag_bytes who.tag, rfl⟩
  have := hl h
  simp only [payloadOk, List.length_cons, Bool.and_eq_true, decide_eq_true_eq]
  omega

/-- The law for a command that no request carries. -/
theorem of_none {i : Instr} (hr : requestOf i = none) : Statement i := by
  intro _ p hp
  simp only [requestPayload, hr] at hp
  cases hp

theorem frameArrival (port : Port) (bytes : List Byte) (badStop : Bool) : Statement (.frameArrival port bytes badStop) :=
  of_none rfl
theorem transmitStart (port : Port) : Statement (.transmitStart port) := of_none rfl
theorem transmitCompletion (port : Port) : Statement (.transmitCompletion port) := of_none rfl
theorem noticeFrameBuild : Statement .noticeFrameBuild := of_none rfl
theorem coldReset (cause : ResetCause) : Statement (.coldReset cause) := of_none rfl
theorem stopInAssertion : Statement .stopInAssertion := of_none rfl
theorem quarterTick : Statement .quarterTick := of_none rfl
theorem rideSecondTick (clockFirst : Bool) : Statement (.rideSecondTick clockFirst) := of_none rfl
theorem holdDownExpiry : Statement .holdDownExpiry := of_none rfl
theorem channelStale (channel : ChannelIx) : Statement (.channelStale channel) := of_none rfl
theorem channelLive (channel : ChannelIx) : Statement (.channelLive channel) := of_none rfl
theorem encoderWatchExpiry : Statement .encoderWatchExpiry := of_none rfl
theorem stalenessTimerExpiry (drive : DriveIx) : Statement (.stalenessTimerExpiry drive) := of_none rfl
theorem flushTimerExpiry : Statement .flushTimerExpiry := of_none rfl
theorem commitTimerExpiry : Statement .commitTimerExpiry := of_none rfl
theorem commitWalkCompletion (walk : Nat) : Statement (.commitWalkCompletion walk) := of_none rfl
theorem swap : Statement .swap := of_none rfl
theorem deferredWarmRestart : Statement .deferredWarmRestart := of_none rfl
theorem readDirectory (who : Requester) (first : Byte) : Statement (.readDirectory who first) :=
  of_request rfl rfl fun _ => by simp
theorem readTable (who : Requester) (table bank first count : Byte) : Statement (.readTable who table bank first count) :=
  of_request rfl rfl fun _ => by simp
theorem writeStaging (who : Requester) (bank table first count : Byte) (entries : List Byte) : Statement (.writeStaging who bank table first count entries) :=
  of_request rfl rfl fun h => by
    have he := of_decide_eq_true (Bool.and_eq_true_iff.mp h).2
    simp only [Instr.entryBytes, maxEntryBytes] at he
    simp only [List.length_cons]
    omega
theorem commitStaging (who : Requester) (bank : Byte) : Statement (.commitStaging who bank) :=
  of_request rfl rfl fun _ => by simp
theorem abortCommit (who : Requester) : Statement (.abortCommit who) := of_request rfl rfl fun _ => by simp
theorem revertToFloor (who : Requester) : Statement (.revertToFloor who) := of_request rfl rfl fun _ => by simp
theorem readStatus (who : Requester) : Statement (.readStatus who) := of_request rfl rfl fun _ => by simp
theorem setService (who : Requester) (cabin service : Byte) : Statement (.setService who cabin service) :=
  of_request rfl rfl fun _ => by simp
theorem setOccupancy (who : Requester) (cabin occupancy : Byte) : Statement (.setOccupancy who cabin occupancy) :=
  of_request rfl rfl fun _ => by simp
theorem setOperatorFloor (who : Requester) (level : Byte) : Statement (.setOperatorFloor who level) :=
  of_request rfl rfl fun _ => by simp
theorem beginSweep (who : Requester) : Statement (.beginSweep who) := of_request rfl rfl fun _ => by simp
theorem endSweep (who : Requester) : Statement (.endSweep who) := of_request rfl rfl fun _ => by simp
theorem openBoarding (who : Requester) : Statement (.openBoarding who) := of_request rfl rfl fun _ => by simp
theorem latchStop (who : Requester) : Statement (.latchStop who) := of_request rfl rfl fun _ => by simp
theorem clearStop (who : Requester) : Statement (.clearStop who) := of_request rfl rfl fun _ => by simp
theorem setClock (who : Requester) (hours minutes seconds : Byte) : Statement (.setClock who hours minutes seconds) :=
  of_request rfl rfl fun _ => by simp
theorem setClosingAlarm (who : Requester) (hours minutes enable : Byte) : Statement (.setClosingAlarm who hours minutes enable) :=
  of_request rfl rfl fun _ => by simp
theorem resumeNotices (who : Requester) : Statement (.resumeNotices who) := of_request rfl rfl fun _ => by simp
theorem warmRestart (who : Requester) : Statement (.warmRestart who) := of_request rfl rfl fun _ => by simp
theorem envelopeWrite (who : Requester) (field : Byte) (value : BitVec 16) : Statement (.envelopeWrite who field value) :=
  of_request rfl rfl fun _ => by simp
theorem envelopeLock (who : Requester) : Statement (.envelopeLock who) := of_request rfl rfl fun _ => by simp
theorem stopInRelease : Statement .stopInRelease := of_none rfl
theorem endOfColdReset (modeHigh : Bool) : Statement (.endOfColdReset modeHigh) := of_none rfl
theorem powerLoss : Statement .powerLoss := of_none rfl

end Sys2Proof.Laws.RequestLaw
end

