-- ==== Sys2Proof/Tests/Slice0.lean ====
section
/-! SUPPORT. Tests: the manual's worked sequences on its reference wheel, one small step each, the refusals of `wellFormed`, and
for every statement with hypotheses a witness that meets them. Every expected number is one the manual prints, or is found
by hand from the rule named beside it. -/

namespace Sys2Proof.Tests

open Sys2Proof Sys2Proof.Machine

set_option Elab.async false

/-! ## The reference wheel (chapters 2, 3, 4, 6 and 7) -/

def role (r : Role) (n : Byte) : Option RoleEntry := some { role := r, node := n }

/-- Chapter 2's bank 1, with chapter 6's wind table and chapter 7's governor record. -/
def wheelBank : Bank :=
  { roles := #v[role .supervisor 1, role .encoder 10, role (.anemometer 0) 20, role (.anemometer 1) 21,
                role (.anemometer 2) 22, role (.anemometer 3) 23, role (.drive 0) 30, role (.drive 1) 31,
                role (.drive 2) 32, role (.drive 3) 33, role (.station .a) 40, role (.station .b) 41, role .hub 50,
                none, none, none]
    map := Vector.ofFn fun i => match i.val with
      | 0 => some { treatment := .pass, direction := .toField, srcLo := 1, srcHi := 2, dstLo := 0, dstHi := 255, classes := 7 }
      | 1 => some { treatment := .bar, direction := .toField, srcLo := 0, srcHi := 254, dstLo := 0, dstHi := 255, classes := 8 }
      | 2 => some { treatment := .bar, direction := .toSupervisor, srcLo := 20, srcHi := 23, dstLo := 0, dstHi := 255
                    classes := 32 }
      | 3 => some { treatment := .screen, direction := .toSupervisor, srcLo := 0, srcHi := 254, dstLo := 0, dstHi := 255
                    classes := 192 }
      | 4 => some { treatment := .pass, direction := .toField, srcLo := 90, srcHi := 90, dstLo := 30, dstHi := 33
                    classes := 4096 }
      | _ => none
    defField := some .bar, defSup := some .pass
    berths := { a := some { station := 40, start := 1000, length := 8000, margin := 2000, creep := 260 }
                b := some { station := 41, start := 513000, length := 8000, margin := 2000, creep := 250 } }
    windLevels := floorWind
    floors := some { quorum := 2, blind := .reduced }
    limits := #v[some { ceiling := 400, load := 32 }, some { ceiling := 400, load := 25 },
                 some { ceiling := 300, load := 18 }, some { ceiling := 200, load := 0 }, some { ceiling := 0, load := 0 }]
    beacons := floorBeacons
    governor := some { accel := 20, decel := 100, staleMs := 1000, encoderMs := 500, blind := 100, tolerance := 5
                       reverse := true }
    passLimit := some 2, flushMs := some 100 }

def wheelEnvelope : Envelope :=
  { cabins := some 40, capacity := some 32, maxForward := some 600, maxReverse := some 100, berths := some 2
    ownNode := some 5, supNode := some 2, gustCap := some 400, locked := true }

/-- A cabin at rest: door LOCKED, `n` aboard, COUNTED. -/
def seated (n : Nat) : Cabin := { Cabin.reset with door := .locked, occupancy := n, uncertain := false }

/-- A LIVE channel at a node with steady gust and sustained values. -/
def liveChannel (node : Byte) (gust sust : Nat) : Channel :=
  { Channel.unassigned with
    state := .live, node := some node, held := some { max := gust, mean := sust }, gustRing := [gust, gust, gust]
    sustRing := [sust, sust, sust], sustSum := 3 * sust, filled := 3, warm := 3 }

/-- The reference wheel at level OPEN: latch CLEAR, position KNOWN at P = 1,000,000 and +250 mm/s, every door LOCKED. -/
def wheel : State :=
  State.recomputeBoarding { State.reset with
    policy := { PolicyStore.reset 0 with bank1 := wheelBank, active := .one, staging := .two }
    envelope := wheelEnvelope
    cabins := Vector.replicate 64 (seated 0)
    governor := { Governor.reset with latch := false }
    rim := { known := true, fix := some { position := 1000000, speed := 250 }, watch := some 500
             lastKnown := Vector.ofFn fun i => if i.val = 2 then some .a else none, marks := Vector.replicate 64 false }
    wind := { WindAssessor.reset with
      channels := #v[liveChannel 20 50 40, liveChannel 21 50 40, liveChannel 22 50 40, liveChannel 23 50 40]
      level := .opened, countdown := 0, effGust := 50, effSust := 40, live := 4, lead := some 0
      sent := { a := some 0, b := some 0 } } }

/-- A factory part after its first cold reset, with its clock SET to 11:02:40. -/
def bench : State := State.reset.withClock { ClockUnit.reset with set := true, time := 39760 }

def atLevel (l : Level) (countdown : Nat) (s : State) : State :=
  (s.withWind { s.wind with level := l, countdown := countdown }).recomputeCeilings

def granted (b : Berth) (c : Nat) (k : GrantKind) (st : GrantState) (s : State) : State :=
  (s.withGrant b (some { cabin := c, kind := k, state := st, since := 0 })).recomputeBoarding

def who : Requester := { node := 2, tag := 0x0102 }

/-- The next state of a command; every command answers one. -/
def after (c : Instr) (s : State) : State :=
  match exec c s with
  | .next t => t
  | .fault _ => s
  | .refused _ => s

/-- The frame a supervisor or a field node sends. -/
def sent (dest src cls : Byte) (payload : List Byte) : Frame := Frame.build dest src cls 0 9 payload

def fromSup (f : Frame) : Instr := .frameArrival .supervisor f.bytes false
def fromField (f : Frame) : Instr := .frameArrival .field f.bytes false

/-- The kind, subject and data of the records that wait in the combining buffer. -/
def buffered (s : State) : List (Nat × List Nat) :=
  s.notices.buffer.map fun n => (n.kind.code, [n.subject, n.data0, n.data1, n.data2, n.data3].map BitVec.toNat)

/-- A NOTICE frame's payload in the supervisor transmitter. -/
def transmitted (s : State) : List Nat :=
  match s.path.supTx with
  | some f => f.payload.map BitVec.toNat
  | none => []

/-! ## `wellFormed` refuses what the link cannot deliver -/

theorem test_wf_request : (Instr.readStatus who).wellFormed = true := by decide

theorem test_wf_refuses_node_255 : (Instr.readStatus { who with node := 255 }).wellFormed = false := by decide

theorem test_wf_refuses_long_entries :
    (Instr.writeStaging who 1 2 0 5 (List.replicate 42 0)).wellFormed = false := by decide

theorem test_wf_full_entries : (Instr.writeStaging who 1 2 0 5 (List.replicate 41 0)).wellFormed = true := by decide

/-! ## Frames (R2, R3, R4, R20) -/

/-- R3's own check value. -/
theorem test_crc_of_123456789 : crc [0x31, 0x32, 0x33, 0x34, 0x35, 0x36, 0x37, 0x38, 0x39] = 10673 := by decide +kernel

/-- A run of 7 bytes is too short, and one of 57 too long (R2). -/
theorem test_run_lengths :
    judge (Staging.fill (List.replicate 7 0) false) = .badCheck ∧
      judge (Staging.fill (List.replicate 57 0) false) = .badCheck := by decide +kernel

/-- A REPLY's outcome ends at 6, and a NOTICE record's kind, stamp and count lie in R20's ranges (R4, R20 to R22). -/
theorem test_reply_and_notice_fields :
    let note (kind s2 s1 s0 count : Byte) := formOk (sent 1 5 51 [kind, 0, s2, s1, s0, 0, 0, 0, 0, count]) 10
    formOk (sent 1 5 50 [1, 2, 6]) 3 = true ∧ formOk (sent 1 5 50 [1, 2, 7]) 3 = false ∧
      note 16 1 81 127 1 = true ∧ note 16 1 81 128 1 = false ∧ note 16 0 0 0 0 = false ∧ note 9 0 0 0 1 = false := by
  decide +kernel

/-! ## Sorting on the reference wheel (chapter 2's table) -/

/-- SPEED ORDER 90 to 31: dropped, REFUSED BARRED, subject 31. -/
theorem test_frame_arrival_barred :
    buffered (after (fromSup (sent 31 90 17 [0, 100, 0])) wheel) = [(1, [31, 1, 17, 31, 90])] := by decide +kernel

/-- GATE ORDER 1 to 44, a node with no STATION role: forwarded unscreened, no notice. -/
theorem test_frame_arrival_unscreened :
    let t := after (fromSup (sent 44 1 19 [0, 0])) wheel
    t.path.fldTx = some (sent 44 1 19 [0, 0]) ∧ buffered t = [] := by decide +kernel

/-- DOOR REPORT 50 to 1 for cabin 44: dropped with one BAD_FIELD, subject 44. -/
theorem test_frame_arrival_bad_field :
    let t := after (fromField (sent 1 50 35 [44, 2])) wheel
    buffered t = [(1, [44, 4, 35, 1, 50])] ∧ t.path.supTx = none := by decide +kernel

/-- COUNT REPORT 41 to the own node: REFUSED UNEXPECTED with subject 7, and handed to the register, where berth B holds no grant
for cabin 7. -/
theorem test_frame_arrival_own_node :
    let t := after (fromField (sent 5 41 36 [7, 3, 0])) wheel
    (t.cabin 7).occupancy = 3 ∧ buffered t = [(1, [7, 3, 36, 5, 41]), (3, [7, 1, 0, 3, 0]), (1, [7, 30, 36, 5, 41])] := by
  decide +kernel

/-- Two codes that no class has are the one class OTHER: one record, with the later code and the count 2 (R4, R26). -/
theorem test_other_classes_combine :
    let t := after (fromSup (sent 30 1 201 [])) (after (fromSup (sent 30 1 200 [])) wheel)
    buffered t = [(1, [1, 1, 201, 30, 1])] ∧ t.notices.buffer.map (·.count) = [2] := by decide +kernel

/-! ## Positions (chapter 3's worked cases) -/

theorem test_cabin_arcs :
    cabinAngle 40 1000000 3 = 3852 ∧ cabinAngle 40 1000000 22 = 501926 ∧ rimSub 3852 1000 = 2852 ∧
      rimSub 3852 513000 = 539428 ∧ rimSub 2000 1045000 = 5576 := by decide +kernel

/-- The reports at which cabin 3 passes the withdraw point and leaves berth A. -/
theorem test_zone_events :
    (moveCabin wheelBank 40 997500 250 3 none false).events = [.entry 3 .a] ∧
      (moveCabin wheelBank 40 1003200 250 3 (some .a) false).events = [.withdraw 3 .a] ∧
      (moveCabin wheelBank 40 1004100 250 3 (some .a) true).events = [] ∧
      (moveCabin wheelBank 40 1005300 250 3 (some .a) true).events = [.exit 3 .a .far] := by decide +kernel

/-- Reverse in berth A. -/
theorem test_zone_events_in_reverse :
    (moveCabin wheelBank 40 997000 (-40) 3 (some .a) false).events = [.exit 3 .a .near] ∧
      (moveCabin wheelBank 40 1004600 (-35) 3 none false).events = [.entry 3 .a] ∧
      (moveCabin wheelBank 40 1004300 0 3 (some .a) false).events = [.withdraw 3 .a] := by decide +kernel

/-- The encoder falls silent: UNKNOWN, the membership reported NONE and kept as last known. -/
theorem test_encoder_watch_expiry :
    let t := after .encoderWatchExpiry wheel
    t.rim.known = false ∧ t.reported 3 = none ∧ t.rim.lastKnown[2] = some .a ∧ t.governor.ceilingF = 100 := by
  decide +kernel

/-! ## Ceilings and speeds (chapter 7's tables) -/

def ceilings (s : State) : Nat × Nat := (s.governor.ceilingF, s.governor.ceilingV)

theorem test_ceilings :
    ceilings wheel = (400, 100) ∧ ceilings (granted .a 3 .standard .granted wheel) = (260, 0) ∧
      ceilings (wheel.withCabin 9 { seated 0 with door := .unknown }).recomputeBoarding = (250, 100) ∧
      ceilings (atLevel .reduced 300 wheel) = (300, 100) ∧ ceilings (atLevel .unload 600 wheel) = (200, 0) ∧
      ceilings (atLevel .park 900 wheel) = (0, 0) ∧ ceilings (granted .a 3 .standard .late wheel) = (0, 0) := by
  decide +kernel

/-- The first and the sixth order of the ramp, and the four orders of the reversal. -/
theorem test_speed_outputs :
    speedOutput 260 100 2000 = (102, 0) ∧ speedOutput 0 137 2000 = (0, 2000) ∧
      speedOutput (speedTarget (-30) 300 100) 50 4000 = (0, 4000) ∧ speedOutput (-30) 0 8000 = (-8, 0) ∧
      speedOutput (-30) (-8) 10000 = (-18, 0) ∧ speedOutput (-30) (-18) 20000 = (-30, 8000) := by decide +kernel

/-- The ramp at its first order: 400 asked for at 100 ms from s = 100. -/
theorem test_speed_order_amended :
    let d : Drive := { state := .following, speed := 100, credit := 0, screened := some 0, stale := some 900, subs := 0 }
    let s := ((granted .a 3 .standard .granted wheel).withDrive 0 d).withClock { wheel.clock with now := 100 }
    let t := after (fromSup (sent 30 1 17 [1, 144, 1])) s
    t.path.fldTx = some (Frame.build 30 1 17 1 9 [0, 102, 1]) ∧ (t.drive 0).speed = 102 ∧
      buffered t = [(2, [0, 1, 144, 0, 102])] := by decide +kernel

def silent (speed : Int) (st : DriveState) : Drive :=
  { state := st, speed := speed, credit := 0, screened := some 0, stale := none, subs := 0 }

/-- The supervisor falls silent: the first substitute is 102, FREE. -/
theorem test_quarter_tick :
    let t := after .quarterTick ((atLevel .unload 600 wheel).withDrive 0 (silent 127 .substituting))
    (t.drive 0).speed = 102 ∧ (t.drive 0).subs = 1 ∧ t.path.fldTx = some (Frame.build 30 5 17 2 0 [0, 102, 1]) := by
  decide +kernel

/-- STALE ENTERED with s 127; its record leaves in a NOTICE frame at once. -/
theorem test_staleness_timer_expiry :
    let t := after (.stalenessTimerExpiry 0) (wheel.withDrive 0 { silent 127 .following with stale := some 0 })
    (t.drive 0).state = .substituting ∧ transmitted t = [21, 0, 0, 0, 0, 0, 0, 127, 0, 1] := by decide +kernel

/-! ## The stop latch (R135, R136) -/

/-- The STOP notice carries F = 400 and V = 100 as they stood. -/
theorem test_stop_in_assertion :
    let t := after .stopInAssertion wheel
    t.governor.latch = true ∧ ceilings t = (0, 0) ∧ t.governor.rimHold = true ∧
      transmitted t = [20, 0, 0, 0, 0, 1, 144, 0, 100, 1] := by decide +kernel

theorem test_stop_in_release :
    let t := after .stopInRelease (after .stopInAssertion wheel)
    t.stopIn = false ∧ t.governor.latch = true := by decide +kernel

/-- Answered DONE in either state of the latch: here it is SET already, and no notice is posted. -/
theorem test_latch_stop :
    transmitted (after (.latchStop who) State.reset) = [1, 2, 0, 1, 0] := by decide +kernel

/-- Refused STATE while the input is active, with the latch and the input as data. -/
theorem test_clear_stop :
    transmitted (after (.clearStop who) { State.reset with stopIn := true }) = [1, 2, 4, 1, 1] ∧
      transmitted (after (.clearStop who) State.reset) = [1, 2, 0, 0, 0] := by decide +kernel

/-! ## The boarding cycle (chapter 5's tables) -/

/-- The release of cabin 3 at arc 2,852. -/
theorem test_release_granted :
    let t := after (fromSup (sent 50 1 18 [3, 0, 0])) (wheel.withClock bench.clock)
    t.board.grants.a = some { cabin := 3, kind := .standard, state := .granted, since := 39760 } ∧
      t.board.creep = true ∧ t.board.creepValue = 260 ∧ t.path.fldTx = some (sent 50 1 18 [3, 0, 0]) := by decide +kernel

/-- Releases judged in turn at P = 1,003,200. -/
theorem test_releases_judged :
    let s := granted .a 3 .standard .withdrawing
      (wheel.withRim { wheel.rim with fix := some { position := 1003200, speed := 250 } })
    s.judgeRelease 3 .standard = .refused .pastWithdraw ∧ s.judgeRelease 3 .assist = .refused .berthBusy ∧
      s.judgeRelease 22 .standard = .refused .notInZone ∧ s.judgeRelease 41 .standard = .refused .notInService := by
  decide +kernel

/-- WITHDRAW_POINT with the entry gate OPEN: the door lock starts at once, and the gate close waits. -/
theorem test_withdraw_point :
    let s := granted .a 3 .standard .granted (wheel.takeGates .a .opened .opened)
    let t := after (fromField (sent 1 10 33 [15, 78, 192, 0, 250, 0])) s
    t.board.grants.a = some { cabin := 3, kind := .standard, state := .withdrawing, since := 0 } ∧
      t.path.fldTx = some (Frame.build 50 5 18 2 0 [3, 1, 0]) ∧
      t.path.origin = [{ key := .gateClose .a, frame := Frame.build 40 5 19 2 1 [0, 1] }] := by decide +kernel

/-- The LOCKED report ends the grant, and the CYCLE record takes the place of the DOOR record. -/
theorem test_locked_report :
    let s := granted .a 12 .standard .granted (wheel.withCabin 12 { seated 25 with door := .opened })
    let t := after (fromField (sent 1 50 35 [12, 0])) s
    t.board.grants.a = none ∧ (t.cabin 12).door = .locked ∧ buffered t = [(3, [12, 2, 0, 25, 0])] := by decide +kernel

/-- Counts that do not add up: 2 aboard, 5 alight; and 3 aboard, 200 board. -/
theorem test_counts :
    (seated 2).counted 0 5 = { seated 0 with uncertain := true } ∧
      (seated 3).counted 200 0 = { seated 63 with uncertain := true } := by decide +kernel

/-! ## Wind (chapter 6's worked cases) -/

/-- One tick on one channel: the bucket of 84, 97, 91 and 88. -/
theorem test_ride_second_tick :
    let x : Channel := { liveChannel 20 0 0 with
      bucketMax := 97, bucketSum := 360, bucketCount := 4, gustRing := [105, 102, 95] }
    let t := after (.rideSecondTick true) (wheel.withChannel 0 x)
    (t.wind.channels[0]).gustRing = [102, 95, 97] ∧ t.wind.effGust = 102 ∧ (t.wind.channels[0]).sustRing.getLast? = some 90 := by
  decide +kernel

/-- A tick with a gust of 143 at WATCH: REDUCED, countdown 300, LEVEL subject 10, beacon FAST to both stations. -/
theorem test_ride_second_tick_rise :
    let s := (atLevel .watch 120 wheel).withChannel 0
      { liveChannel 20 143 98 with bucketMax := 143, bucketSum := 98, bucketCount := 1 }
    let t := after (.rideSecondTick false) s
    t.wind.level = .reduced ∧ t.wind.countdown = 300 ∧ (transmitted t).take 2 = [16, 10] ∧
      t.path.fldTx = some (Frame.build 40 5 20 2 0 [3]) := by decide +kernel

/-- The countdown reaches 0 at REDUCED: WATCH, countdown 120, LEVEL subject 17. -/
theorem test_hold_down_expiry :
    let t := after .holdDownExpiry (atLevel .reduced 1 wheel)
    t.wind.level = .watch ∧ t.wind.countdown = 120 ∧ (transmitted t).take 2 = [16, 17] := by decide +kernel

/-- A third empty second: STALE, its rings empty, the stale count 2 (R98). -/
theorem test_channel_stale :
    let t := after (.channelStale 1) (wheel.withChannel 1 { liveChannel 21 50 40 with stale := 2 })
    (t.wind.channels[1]).state = .stale ∧ (t.wind.channels[1]).sustRing = [] ∧ t.wind.live = 3 := by decide +kernel

/-- The third push makes a WARMING channel LIVE (R97). -/
theorem test_channel_live :
    let x : Channel := { liveChannel 22 50 40 with
      state := .warming, gustRing := [50, 50], sustRing := [40, 40], sustSum := 80, filled := 2, warm := 2
      bucketMax := 60, bucketSum := 90, bucketCount := 2 }
    let t := after (.channelLive 2) (wheel.withChannel 2 x)
    (t.wind.channels[2]).state = .live ∧ (t.wind.channels[2]).sustRing = [40, 40, 45] := by decide +kernel

/-- Set Operator Floor UNLOAD: the level, 600 s, and LEVEL with subject 11 from REDUCED. -/
theorem test_set_operator_floor :
    let t := after (.setOperatorFloor who 3) (atLevel .reduced 300 wheel)
    t.wind.level = .unload ∧ t.wind.countdown = 600 ∧ t.sweep.wind = true ∧ t.path.supTx.map (·.cls) = some 50 := by
  decide +kernel

/-! ## The sweep (chapter 8's worked sequence) -/

/-- The reference wheel with chapter 8's cabins, at REDUCED. -/
def aloft : State :=
  atLevel .reduced 300 (granted .a 3 .standard .granted
    (((((((wheel.withCabin 3 (seated 9)).withCabin 12 (seated 15)).withCabin 17
      { seated 4 with inService := false }).withCabin 21 (seated 6)).withCabin 25
      { seated 0 with uncertain := true }).withCabin 30 (seated 20)).withCabin 38 (seated 12)))

/-- The list is in order of arrival at berth A. -/
theorem test_begin_sweep :
    let t := after (.beginSweep who) aloft
    t.sweep.list = [38, 30, 25, 21, 12, 3] ∧ t.sweep.state = .active ∧ t.sweep.operator = true := by decide +kernel

/-- SWEEP at the rise to UNLOAD: subject 1, data 1, 6, 0, 0. -/
theorem test_sweep_notice :
    (aloft.changeLevel .unload).notices.queue.map (fun q => q.note.bytes.map BitVec.toNat) =
      [[16, 19, 0, 0, 0, 12, 130, 128, 4, 1], [17, 1, 0, 0, 0, 1, 6, 0, 0, 1]] := by decide +kernel

/-- The second pass of cabin 30, at berth B: STUCK, subject 30, data 2, 20, 0, 2. -/
theorem test_sweep_stuck :
    let s := ((aloft.withSweep { aloft.sweep with state := .active, operator := true, list := [30, 12] }).withCabin 30
      { seated 20 with mark := some .passed, passes := 1 }).withCabin 12 { seated 2 with mark := some .passed, passes := 1 }
    let t := s.sweepExit 30 .b
    t.sweep.list = [12, 30] ∧ (t.cabin 30).mark = some .stuck ∧
      t.notices.queue.map (fun q => q.note.bytes.map BitVec.toNat) = [[18, 30, 0, 0, 0, 2, 20, 0, 2, 1]] := by decide +kernel

/-- End Sweep: IDLE, and marks and pass counts cleared. -/
theorem test_end_sweep :
    let t := after (.endSweep who) (after (.beginSweep who) aloft)
    t.sweep.list = [] ∧ t.sweep.state = .idle ∧ (t.cabin 30).mark = none := by decide +kernel

/-- Open Boarding removes CLOSE: the reply's state, causes and length are 0 (R155). -/
theorem test_open_boarding :
    let s := wheel.withSweep { wheel.sweep with state := .done, close := true }
    (after (.openBoarding who) s).sweep.close = false ∧ (after (.openBoarding who) s).sweep.state = .idle := by decide +kernel

/-! ## Cabins by request (R64, R65) -/

theorem test_set_service :
    let t := after (.setService who 12 2) wheel
    (t.cabin 12).inService = false ∧ buffered t = [(3, [12, 3, 0, 0, 2])] := by decide +kernel

/-- An UNCERTAIN empty cabin is settled at 0 and leaves the list. -/
theorem test_set_occupancy :
    let s := (aloft.withSweep { aloft.sweep with state := .active, operator := true, list := [12, 30, 25] }).withCabin 25
      { seated 0 with uncertain := true, mark := some .pending }
    let t := after (.setOccupancy who 25 0) s
    t.sweep.list = [12, 30] ∧ (t.cabin 25).uncertain = false := by decide +kernel

/-! ## Banks and commits (chapter 9) -/

/-- The reference wheel's bank passes the walk against its LOCKED envelope, and fails check 1 against a BLANK one. -/
theorem test_commit_walk :
    commitWalk wheelBank wheelEnvelope = none ∧
      commitWalk wheelBank Envelope.blank = some { check := 1, table := 16, index := 0 } := by decide +kernel

/-- The entry of slot 2: role code 3, node 20, channel 0 (R160). -/
theorem test_write_staging :
    let t := after (.writeStaging who 1 1 2 1 [3, 20, 0]) State.reset
    t.policy.bank1.nodeOf (.anemometer 0) = some 20 ∧ transmitted t = [1, 2, 0, 1] := by decide +kernel

/-- A DRIVE of index 8 lies outside its range (R160, R162). -/
theorem test_write_staging_range :
    transmitted (after (.writeStaging who 1 1 2 1 [4, 20, 8]) State.reset) = [1, 2, 3] := by decide +kernel

/-- Bank 0's WATCH entry: present, 110, 80, 95, 70, 120. -/
theorem test_read_table :
    transmitted (after (.readTable who 4 0 0 1) State.reset) =
      [1, 2, 0, 4, 0, 1, 0, 1, 0, 110, 0, 80, 0, 95, 0, 70, 0, 120] := by decide +kernel

/-- 22 bytes of data and five headers of five bytes after the code, the tag and the outcome (R175). -/
theorem test_read_directory :
    (transmitted (after (.readDirectory who 0) State.reset)).length = 45 ∧
      (transmitted (after (.readDirectory who 0) State.reset)).take 10 = [1, 2, 0, 65, 74, 68, 78, 1, 0, 16] := by
  decide +kernel

theorem test_commit_staging :
    let t := after (.commitStaging who 2) wheel
    t.policy.commit = .walking ∧ t.policy.timer = some 60000 ∧ transmitted t = [1, 2, 1, 2] := by decide +kernel

/-- The reference wheel with its bank copied to bank 2, and the commit of that bank at a stage. -/
def committing (c : CommitState) : State :=
  wheel.withPolicy { wheel.policy with bank2 := wheelBank, commit := c, commitBank := some .two, timer := some 0, walk := 1 }

theorem test_commit_walk_completion :
    let s := granted .a 3 .standard .granted (committing .walking)
    (after (.commitWalkCompletion 1) s).policy.commit = .pending ∧
      (after (.commitWalkCompletion 0) s).policy.commit = .walking := by decide +kernel

theorem test_swap :
    let t := after .swap (committing .pending)
    t.policy.active = .two ∧ t.policy.staging = .one ∧ t.policy.commit = .idle ∧ ((transmitted t).drop 5).take 4 = [2, 0, 0, 1] := by
  decide +kernel

/-- TIMED_OUT: outcome 2, active bank 1, state 2 and staging bank 2 (R168, R172). -/
theorem test_commit_timer_expiry :
    let t := after .commitTimerExpiry (committing .pending)
    t.policy.commit = .idle ∧ t.policy.active = .one ∧ (transmitted t).take 2 = [19, 2] := by decide +kernel

theorem test_abort_commit :
    let t := after (.abortCommit who) (committing .walking)
    t.policy.commit = .idle ∧ t.policy.commitBank = none ∧ transmitted (after (.abortCommit who) wheel) = [1, 2, 4] := by
  decide +kernel

theorem test_revert_to_floor :
    let t := after (.revertToFloor who) wheel
    t.policy.active = .floor ∧ t.wind.level = .park ∧ t.wind.live = 0 ∧ ceilings t = (0, 0) := by decide +kernel

theorem test_deferred_warm_restart :
    let t := after .deferredWarmRestart (granted .a 3 .standard .granted
      (wheel.withPolicy { wheel.policy with deferred := true }))
    t.board.grants.a = none ∧ t.policy.deferred = false ∧ t.rim.known = false := by decide +kernel

theorem test_warm_restart :
    let t := after (.warmRestart who) (committing .pending)
    t.policy.deferred = true ∧ t.policy.commit = .pending ∧ t.rim.known = true := by decide +kernel

theorem test_envelope_write :
    let t := after (.envelopeWrite who 0 40) State.reset
    t.envelope.cabins = some 40 ∧ t.board.creep = true ∧
      transmitted (after (.envelopeWrite who 0 65) State.reset) = [1, 2, 3] := by decide +kernel

/-- N falls to 8 in a sweep: cabin 38 no longer counts, and with it alone on the list the sweep is DONE (R52, R141; log entry 29). -/
theorem test_envelope_write_in_a_sweep :
    let s (l : List Nat) := (wheel.withEnvelope { wheelEnvelope with locked := false }).withSweep
      { wheel.sweep with state := .active, operator := true, list := l }
    let t := after (.envelopeWrite who 0 8) (s [38, 3])
    (t.unloadList = [3] ∧ t.sweep.state = .active) ∧
      (after (.envelopeWrite who 0 8) (s [38])).sweep.state = .done := by decide +kernel

theorem test_envelope_lock :
    let s := wheel.withEnvelope { wheelEnvelope with locked := false }
    (after (.envelopeLock who) s).envelope.locked = true ∧
      transmitted (after (.envelopeLock who) State.reset) = [1, 2, 4] := by decide +kernel

/-! ## Status, clock and notices (chapter 10) -/

/-- SCREEN, bank 0, no commit, PARK with 900 s, no LIVE channel, ceilings 0, UNKNOWN, the latch SET, the clock UNSET (R177). -/
theorem test_read_status :
    transmitted (after (.readStatus who) State.reset) =
      [1, 2, 0, 0, 0, 0, 4, 3, 132, 0, 0, 0, 0, 0, 0, 0, 0, 0, 0, 0, 0, 0, 0, 0, 0, 1, 0, 0, 0, 0, 0, 0, 0] := by decide +kernel

/-- 11:02:40 is second 39,760, which is 0, 155, 80 in bytes (R179). -/
theorem test_set_clock :
    let t := after (.setClock who 11 2 40) State.reset
    t.clock.time = 39760 ∧ t.clock.set = true ∧ transmitted t = [1, 2, 0, 1, 0, 155, 80] := by decide +kernel

theorem test_set_closing_alarm :
    (after (.setClosingAlarm who 23 59 1) State.reset).clock.alarmOn = true ∧
      transmitted (after (.setClosingAlarm who 24 0 1) State.reset) = [1, 2, 3] := by decide +kernel

def record (k : NoticeKind) (subject : Byte) : Notice :=
  { kind := k, monitor := false, subject := subject, stamp := 0, data0 := 0, data1 := 0, data2 := 0, data3 := 0, count := 1 }

/-- Chapter 10's freeze, at its start. -/
def crowded : NoticeUnit :=
  { NoticeUnit.reset with
    buffer := [record .clamped 0, record .clamped 1], flush := some 50
    queue := List.replicate 31 { note := record .cabin 1, lastGood := false } }

/-- LEVEL posted: the first CLAMPED record is entered and last-good, the second and LEVEL are lost. -/
theorem test_freeze :
    let u := crowded.take 100 (record .level 10)
    u.queue.length = 32 ∧ u.freeze = .holding ∧ u.lost = 2 ∧ u.firstLost = some .clamped ∧
      u.queue.getLast? = some { note := record .clamped 0, lastGood := true } := by decide +kernel

/-- Resume Notices answers DONE with the lost count 3. -/
theorem test_resume_notices :
    let s := wheel.withNotices { NoticeUnit.reset with freeze := .reported, lost := 3, firstLost := some .clamped }
    let t := after (.resumeNotices who) s
    t.notices.freeze = .flowing ∧ t.notices.lost = 0 ∧ transmitted t = [1, 2, 0, 0, 3] := by decide +kernel

theorem test_flush_timer_expiry :
    let t := after .flushTimerExpiry
      (wheel.withNotices { NoticeUnit.reset with buffer := [record .clamped 0, record .clamped 1], flush := some 0 })
    t.notices.buffer = [] ∧ t.notices.flush = none ∧ (transmitted t).length = 20 := by decide +kernel

/-! ## The line (R14 to R17) -/

/-- The supervisor port: while both queues hold frames a fifth forward in a row is not sent, the part queue's is (R16). -/
def busy (run : Nat) : State :=
  wheel.withPath { wheel.path with
    supForward := [sent 1 10 33 []], part := [sent 1 5 50 []], supTx := some (sent 1 5 51 []), runCount := run }

theorem test_transmit_completion :
    (after (.transmitCompletion .supervisor) (busy 3)).path.supTx = some (sent 1 10 33 []) ∧
      (after (.transmitCompletion .supervisor) (busy 4)).path.supTx = some (sent 1 5 50 []) := by decide +kernel

theorem test_transmit_start :
    let s := wheel.withPath { wheel.path with
      fldForward := [sent 30 1 17 []], origin := [{ key := .beacon .a, frame := sent 40 5 20 [0] }] }
    (after (.transmitStart .field) s).path.fldTx = some (sent 40 5 20 [0]) := by decide +kernel

/-- A part queue of 5 takes one NOTICE frame, of four records, and one of 6 takes none (R14). -/
theorem test_notice_frame_build :
    let s (n : Nat) := (wheel.withPath { wheel.path with
      part := List.replicate n (sent 1 5 50 []), supTx := some (sent 1 5 50 []) }).withNotices
        { NoticeUnit.reset with queue := List.replicate 5 { note := record .cabin 1, lastGood := false } }
    (after .noticeFrameBuild (s 5)).path.part.length = 6 ∧ (after .noticeFrameBuild (s 5)).notices.queue.length = 1 ∧
      (after .noticeFrameBuild (s 6)).notices.queue.length = 5 := by decide +kernel

/-! ## Resets and power (R137, R187) -/

theorem test_cold_reset :
    let t := after (.coldReset .resetPin) wheel
    t.phase = .heldInReset ∧ t.governor.latch = true ∧ t.wind.level = .park ∧ t.envelope = wheelEnvelope ∧
      (after (.coldReset .resetPin) { wheel with phase := .unpowered }).phase = .unpowered := by decide +kernel

theorem test_end_of_cold_reset :
    let t := after (.endOfColdReset false) (after (.coldReset .powerOn) wheel)
    t.phase = .running ∧ t.mode = .monitor ∧ t.governor.rimHold = false := by decide +kernel

theorem test_power_loss :
    let t := after .powerLoss (busy 0)
    t.phase = .unpowered ∧ t.path.supTx = none ∧ t.governor.rimHold = true := by decide +kernel

/-- With no command waiting 1 ms passes; the fourth quarter tick of a second brings the ride-second tick (R178). -/
theorem test_idle :
    let s := wheel.withClock { wheel.clock with sinceQuarter := 249, quarters := 3 }
    s.idle.clock.now = 1 ∧ s.idle.pending.length = 2 ∧ s.idle.pending.head? = some .quarterTick := by decide +kernel

/-! ## Witnesses: states and operands that meet the hypotheses of the statements, at the ends of their ranges -/

/-- The wheel with part frames queued up to a number, behind a frame in transmission. -/
def queued (n : Nat) : State :=
  wheel.withPath { wheel.path with part := List.replicate n (sent 1 5 50 []), supTx := some (sent 1 5 50 []) }

theorem witness_idle :
    wheel.pending = [] ∧ wheel.phase = .running ∧ ({ wheel with phase := .heldInReset } : State).pending = [] ∧
      (committing .walking).policy.commit = .walking ∧ wheel.rim.watch = some 500 := by decide +kernel

theorem queued_fed (n : Nat) : (queued n).Fed :=
  { supervisor := fun _ h => (nomatch (show some (sent 1 5 50 []) = none from h))
    field := fun _ _ => ⟨rfl, rfl⟩
    notices := fun _ => Or.inl rfl }

theorem witness_shut_out :
    (∃ s : State, s.phase ≠ .running ∧ (∀ cause, Instr.readStatus who ≠ .coldReset cause) ∧
      (∀ m, Instr.readStatus who ≠ .endOfColdReset m) ∧ Instr.readStatus who ≠ .stopInAssertion ∧
      Instr.readStatus who ≠ .stopInRelease ∧ Instr.readStatus who ≠ .powerLoss) ∧
    ∃ s : State, (Instr.readStatus who).requester ≠ none ∧ s.phase = .running ∧ 8 ≤ s.path.part.length ∧ s.Fed ∧
      s.notices.Between :=
  ⟨⟨{ wheel with phase := .unpowered }, by decide +kernel, by simp, by simp, by simp, by simp, by simp⟩,
    queued 8, by simp [Instr.requester], by decide +kernel, by decide +kernel, queued_fed 8, by decide +kernel, by decide +kernel⟩

theorem witness_queues_bounded : (queued 8).QueuesBounded ∧ ∃ t, step (queued 8) = .next t :=
  ⟨⟨⟨by decide +kernel, by decide +kernel, by decide +kernel, by decide +kernel, by decide +kernel⟩,
    ⟨by decide +kernel, by decide +kernel, by decide +kernel, by decide +kernel, by decide +kernel⟩,
    by decide +kernel, by decide +kernel⟩, _, rfl⟩

theorem wheel_apart : wheel.BanksApart := by unfold State.BanksApart; decide +kernel

theorem wheel_governed : wheel.Governed := by
  refine ⟨wheel_apart, ?_, ?_⟩
  · unfold State.ConditionsAgree; decide +kernel
  · unfold State.CeilingsAgree; decide +kernel

theorem witness_governed : wheel.Governed ∧ ∃ t, step wheel = .next t := ⟨wheel_governed, _, rfl⟩

theorem wheel_level_law : wheel.LevelLaw :=
  ⟨by decide +kernel, by unfold State.AboveFloor; decide +kernel, by decide +kernel⟩

theorem witness_level_law : wheel.BanksApart ∧ wheel.LevelLaw ∧ ∃ t, step wheel = .next t :=
  ⟨wheel_apart, wheel_level_law, _, rfl⟩

/-- Two grants, at both berths. -/
def boarding : State := granted .b 22 .standard .granted (granted .a 3 .standard .granted wheel)

theorem witness_one_grant_each :
    boarding.board.grants.a.isSome ∧ boarding.board.grants.b.isSome ∧ boarding.OneGrantEach ∧ ∃ t, step boarding = .next t := by
  refine ⟨by decide +kernel, by decide +kernel, ?_, _, rfl⟩
  intro g h hg hh
  cases hg.symm.trans (show boarding.board.grants.a = some _ from rfl)
  cases hh.symm.trans (show boarding.board.grants.b = some _ from rfl)
  decide

theorem witness_rings_agree : (∀ c : ChannelIx, (wheel.wind.channels[c]).RingsAgree) ∧ ∃ t, step wheel = .next t := by
  refine ⟨fun c => ⟨?_, ?_, ?_, ?_, ?_, ?_, ?_⟩, _, rfl⟩ <;> revert c <;> decide +kernel

theorem witness_fed : (queued 8).Fed ∧ ∃ t, step (queued 8) = .next t := ⟨queued_fed 8, _, rfl⟩

theorem wheel_in_range : wheel.envelope.InRange := by
  refine ⟨?_, ?_, ?_, ?_, ?_, ?_, ?_, ?_⟩ <;>
    · intro n hn
      cases hn
      decide

theorem witness_envelope_in_range :
    wheel.envelope.InRange ∧ wheel.envelope.locked = true ∧ ∃ t, step wheel = .next t :=
  ⟨wheel_in_range, by decide +kernel, _, rfl⟩

/-- Chapter 8's sweep with six cabins listed, and one grant. -/
def sweeping : State := after (.beginSweep who) aloft

theorem sweeping_envelope : sweeping.envelope = wheel.envelope := by decide +kernel

theorem sweeping_marks :
    ∀ c : Fin 65, 1 ≤ c.val → (c.val ∈ sweeping.sweep.list ↔ (sweeping.cabin c.val).mark ≠ none) := by decide +kernel

theorem sweeping_grants :
    sweeping.board.grants = { a := some { cabin := 3, kind := .standard, state := .granted, since := 0 }, b := none } := by
  decide +kernel

theorem witness_sweep_law :
    sweeping.envelope.InRange ∧ sweeping.SweepLaw ∧ sweeping.sweep.list = [38, 30, 25, 21, 12, 3] ∧
      (match step sweeping with
       | .next _ => true
       | .fault _ => false
       | .refused _ => false) = true := by
  refine ⟨by rw [sweeping_envelope]; exact wheel_in_range, ⟨by decide +kernel, by decide +kernel, by decide +kernel, by decide +kernel, by decide +kernel,
    by decide +kernel, fun c h1 h2 => sweeping_marks ⟨c, Nat.lt_succ_of_le h2⟩ h1, ?_⟩,
    by decide +kernel, by decide +kernel⟩
  rw [sweeping_grants]
  intro b g h
  cases b <;> cases h
  decide

theorem witness_bank_in_force :
    wheel.BanksApart ∧ ∃ t, step wheel = .next t ∧ t.policy.active = wheel.policy.active :=
  ⟨wheel_apart, _, rfl, rfl⟩

theorem witness_clear_stop :
    ∃ t, exec (.clearStop who) State.reset = .next t ∧ State.reset.governor.latch = true ∧ t.governor.latch = false :=
  ⟨_, rfl, by decide +kernel, by decide +kernel⟩

/-- The same request as a frame at the supervisor port. -/
theorem witness_clear_stop_frame :
    let s := wheel.withGovernor { wheel.governor with latch := true }
    let f := sent 5 2 49 [15, 1, 2]
    s.governor.latch = true ∧ (after (fromSup f) s).governor.latch = false ∧ judge (Staging.fill f.bytes false) = .taken f ∧
      f.dest = s.envelope.own ∧ f.kind = .request ∧ s.requestSupervisor f.src = true := by decide +kernel

/-- Rules of the ceilings: each side of the reverse permit, on states whose ceilings follow their inputs. -/
theorem witness_ceilings :
    (wheel.Governed ∧ wheel.board.grants.a = none ∧ wheel.board.grants.b = none ∧ wheel.wind.level = .opened ∧
      wheel.active.gov.reverse = true ∧ 0 < wheel.governor.ceilingF) ∧
    ((granted .a 3 .standard .granted wheel).board.grants.a ≠ none) ∧ (atLevel .park 900 wheel).wind.level = .park := by
  refine ⟨⟨wheel_governed, ?_⟩, ?_⟩ <;> decide +kernel

theorem witness_creep :
    boarding.creepsAt .b = true ∧ (boarding.active.berth .b).isSome ∧ (∀ b, wheel.creepsAt b = false) ∧
      (∀ b, bench.active.berth b = none) := by
  refine ⟨by decide +kernel, by decide +kernel, ?_, ?_⟩ <;> intro b <;> cases b <;> decide +kernel

theorem witness_origin_keys :
    (wheel.originate (.beacon .a) 40 20 [0]).path.originKeys.Nodup ∧
      OriginKey.beacon .a ∈ (wheel.originate (.beacon .a) 40 20 [0]).path.originKeys ∧
      OriginKey.beacon .b ∉ (wheel.originate (.beacon .a) 40 20 [0]).path.originKeys := by decide +kernel

theorem good_sent (dest src cls : Byte) (p : List Byte)
    (h : formOk (sent dest src cls p) p.length = true) : (sent dest src cls p).Good := ⟨h, rfl⟩

/-- A payload of 48 bytes, the longest. -/
theorem witness_frame_bytes :
    (sent 1 2 99 (List.replicate 48 7)).Good ∧ ∃ f, judge (Staging.fill (sent 1 2 99 []).bytes false) = .taken f :=
  ⟨good_sent _ _ _ _ (by decide +kernel), sent 1 2 99 [], by decide +kernel⟩

theorem witness_request_frame :
    (Instr.readStatus who).wellFormed = true ∧ requestPayload (.readStatus who) = some [7, 1, 2] ∧
      (Instr.readStatus who).requester = some who ∧ wheel.phase = .running ∧ wheel.path.supStaging = Staging.empty ∧
      wheel.requestSupervisor who.node = true := by decide +kernel

/-- SPEED ORDER 1 to 30 matches slot 0 of the map and is raised to SCREEN; a frame of class OTHER from the field matches none. -/
theorem witness_treatment :
    wheel.active.mapTreatment .toField (sent 30 1 17 [0, 0, 0]) = .pass ∧
      wheel.treatmentOf .toField (sent 30 1 17 [0, 0, 0]) = .screen ∧
      (wheel.active.map.toList.filterMap id).filter (fun m => m.matches .toSupervisor (sent 1 77 99 [])) = [] := by
  decide +kernel

theorem witness_dropped_arrival :
    (List.replicate 7 (0 : Byte)).length < 8 ∧ 56 < (List.replicate 57 (0 : Byte)).length ∧
      (sent 50 1 18 [0, 0, 0]).payload.length ≤ 48 ∧ (sent 50 1 18 [0, 0, 0]).check = crc (sent 50 1 18 [0, 0, 0]).body ∧
      formOk (sent 50 1 18 [0, 0, 0]) 3 = false ∧ formOk (sent 50 1 18 [65, 0, 0]) 3 = false ∧
      (2 : Byte).toNat ≠ (sent 50 1 18 [3, 0, 0]).payload.length ∧
      (49 : Byte).toNat ≠ (sent 50 1 99 (List.replicate 48 0)).payload.length := by decide +kernel

/-- Both sides of a full forward queue. -/
def congested (n : Nat) : State :=
  wheel.withPath { wheel.path with
    fldForward := List.replicate n (sent 30 90 99 []), supForward := List.replicate n (sent 1 77 99 []) }

theorem witness_passed_frame :
    (sent 30 90 99 []).Good ∧ (congested 15).treatmentOf .toField (sent 30 90 99 []) = .pass ∧
      (sent 1 77 99 []).Good ∧ (congested 16).treatmentOf .toSupervisor (sent 1 77 99 []) = .pass ∧
      (congested 16).active.roleOf 77 = none ∧ (30 : Byte) ≠ wheel.envelope.own ∧ (1 : Byte) ≠ wheel.envelope.own ∧
      (congested 15).path.fldForward.length < 16 ∧ 16 ≤ (congested 16).path.supForward.length := by
  refine ⟨good_sent _ _ _ _ ?_, ?_, good_sent _ _ _ _ ?_, ?_⟩ <;> decide +kernel

/-- The reference wheel with an empty map and one default for both directions. -/
def treating (t : Treatment) : State :=
  wheel.withPolicy { wheel.policy with
    bank1 := { wheelBank with map := Vector.replicate 24 none, defField := some t, defSup := some t } }

/-- A frame that passes the arrival checks, for another node, treated as wanted on its way. -/
def arrives (d : Direction) (t : Treatment) (f : Frame) : Bool :=
  formOk f f.payload.length && decide (f.dest ≠ wheel.envelope.own) && decide ((treating t).treatmentOf d f = t)

/-- Frames to the own node: a request and a report from a node without a role, an order from a supervisor, a door of cabin 41. -/
theorem witness_sorter_own :
    (∀ f ∈ [sent 5 77 49 [7, 1, 2], sent 5 1 17 [0, 100, 0], sent 5 77 99 [], sent 5 50 35 [41, 2]],
      f.Good ∧ f.dest = wheel.envelope.own) ∧
    wheel.phase = .running ∧ wheel.requestSupervisor 77 = false ∧ wheel.active.roleOf 77 = none ∧
      wheel.active.roleOf 50 = some .hub ∧ wheel.present 41 = false ∧ wheel.present 40 = true := by
  refine ⟨?_, by decide +kernel⟩
  simp only [List.forall_mem_cons, List.not_mem_nil, false_implies, implies_true, and_true]
  refine ⟨?_, ?_, ?_, ?_⟩ <;> exact ⟨good_sent _ _ _ _ (by decide +kernel), by decide +kernel⟩

/-- Barred and screened frames of each clause: an order from a drive's node and one to node 255, orders to a node without the role,
a beacon order to a station and to a node that is none, doors of cabins 40 and 41, and reports from the field. -/
theorem witness_sorter_treated :
    (arrives .toField .bar (sent 31 90 17 [0, 100, 0]) ∧ arrives .toField .bar (sent 30 1 200 []) ∧
      arrives .toField .screen (sent 31 90 17 [0, 100, 0]) ∧ arrives .toField .screen (sent 255 1 17 [0, 100, 0]) ∧
      arrives .toField .screen (sent 44 1 17 [0, 100, 0]) ∧ arrives .toField .screen (sent 44 1 19 [0, 0]) ∧
      arrives .toField .screen (sent 40 1 20 [7]) ∧ arrives .toField .screen (sent 44 1 20 [7]) ∧
      arrives .toField .screen (sent 9 1 35 [40, 0]) ∧ arrives .toField .screen (sent 9 1 35 [41, 0])) ∧
    (arrives .toSupervisor .bar (sent 1 77 99 []) ∧ arrives .toSupervisor .screen (sent 1 77 99 []) ∧
      arrives .toSupervisor .screen (sent 1 77 35 [41, 0]) ∧ arrives .toSupervisor .screen (sent 1 50 35 [41, 0]) ∧
      arrives .toSupervisor .bar (sent 1 40 36 [41, 0, 0]) ∧ arrives .toSupervisor .pass (sent 1 50 35 [41, 0])) ∧
    wheel.orderSupervisor 90 = false ∧ wheel.orderSupervisor 1 = true ∧ wheel.active.roleOf 44 = none ∧
      ({ treating .bar with mode := .monitor } : State).mode = .monitor := by decide +kernel

/-- Reports that are noted by their source's role, passed, barred and screened, and one of a class that is not its role's. -/
theorem witness_sorter_noted :
    arrives .toSupervisor .pass (sent 1 10 33 [15, 87, 8, 0, 250, 0]) ∧ arrives .toSupervisor .bar (sent 1 50 35 [3, 0]) ∧
      arrives .toSupervisor .screen (sent 1 40 36 [3, 1, 0]) ∧ arrives .toSupervisor .screen (sent 1 20 34 [0, 9, 0, 0, 0]) ∧
      wheel.notes (sent 1 10 33 [15, 87, 8, 0, 250, 0]) = true ∧ wheel.notes (sent 1 50 35 [3, 0]) = true ∧
      wheel.notes (sent 1 40 36 [3, 1, 0]) = true ∧ wheel.notes (sent 1 20 34 [0, 9, 0, 0, 0]) = true ∧
      wheel.notes (sent 1 40 37 [0, 1]) = true ∧ wheel.notes (sent 1 40 35 [3, 0]) = false ∧
      (after (fromField (sent 1 50 35 [3, 0])) (treating .bar)).path.supTx = none ∧
      (after (fromField (sent 1 50 35 [3, 0])) (treating .pass)).path.supTx = some (sent 1 50 35 [3, 0]) := by
  decide +kernel

/-- In MONITOR mode a barred SPEED ORDER is forwarded, its notice flagged, and sets its drive's speed. -/
theorem witness_sorter_monitor :
    let s : State := { treating .bar with mode := .monitor }
    let t := after (fromSup (sent 30 90 17 [0, 100, 0])) s
    (t.drive 0).speed = 100 ∧ t.path.fldTx = some (sent 30 90 17 [0, 100, 0]) ∧
      t.notices.buffer.map (·.monitor) = [true] := by decide +kernel

theorem witness_speed_order :
    let f := sent 30 1 17 [1, 144, 1]
    f.Good ∧ wheel.phase = .running ∧ wheel.mode = .screen ∧ f.kind = .speedOrder ∧ f.payload = [1, 144, 1] ∧
      f.dest ≠ wheel.envelope.own ∧ f.dest ≠ 255 ∧ wheel.treatmentOf .toField f = .screen ∧
      wheel.orderSupervisor f.src = true ∧ wheel.active.roleOf f.dest = some (.drive 0) ∧
      (congested 15).path.fldForward.length < 16 ∧ 16 ≤ (congested 16).path.fldForward.length ∧
      (wheel.withDrive 0 (silent 0 .held)).drive 0 = silent 0 .held := by
  refine ⟨good_sent _ _ _ _ ?_, ?_⟩ <;> decide +kernel

/-- In MONITOR mode the order goes on unchanged, with the record flagged, and with the queue full its record still stands. -/
theorem witness_speed_order_monitor :
    let s : State := { (congested 16) with mode := .monitor }
    let t := after (fromSup (sent 30 1 17 [1, 144, 1])) s
    (t.drive 0).speed = 400 ∧ t.notices.buffer.map (fun n => (n.kind.code, n.monitor)) = [(2, true), (4, false)] := by
  decide +kernel

/-- Cabin 3 one count short of the withdraw point, at a speed. -/
def atEdge (v : Int) : State := wheel.withRim { wheel.rim with fix := some { position := 1003147, speed := v } }

/-- A STANDARD release at berth A's creep speed and an ASSIST one at the stopped tolerance pass every check; one of an ABSENT
cabin, and one of a cabin out of the zone, do not. -/
theorem witness_release :
    (∀ k : Byte, k = 0 ∨ k = 1 → (sent 50 1 18 [3, 0, k]).Good) ∧
    wheel.treatmentOf .toField (sent 50 1 18 [3, 0, 0]) = .screen ∧ wheel.orderSupervisor 1 = true ∧
    (let s := atEdge 260
     s.governor.latch = false ∧ s.rim.known = true ∧ s.present 3 = true ∧ (s.cabin 3).inService = true ∧
      s.reported 3 = some .a ∧ (s.active.berth .a).isSome ∧
      (s.active.berth .a).all (fun z => decide (arcAt z s.envelope.count s.lastFix.position 3 + 1 = z.length - z.margin)) = true ∧
      s.board.grants.get .a = none ∧ s.holdsGrant 3 = false ∧ s.wind.level ≠ .park ∧ s.boardingClosed = false ∧
      s.lastFix.speed.natAbs ≤ 260) ∧
    (atEdge 5).lastFix.speed.natAbs ≤ (atEdge 5).active.gov.tolerance ∧ (atLevel .watch 9 (atEdge 5)).wind.level.code ≤ 1 ∧
    State.reset.governor.latch = true ∧ wheel.present 41 = false ∧ wheel.reported 22 = none := by
  refine ⟨?_, ?_⟩
  · rintro k (rfl | rfl) <;> exact good_sent _ _ _ _ (by decide +kernel)
  · decide +kernel

/-- Checks 6 to 11, each failing on its own at its edge: the withdraw point itself, a berth in use, PARK and REDUCED, closed
boarding for a cabin off the list and on it, reverse, and one mm/s above each limit; a LOCK. -/
theorem witness_release_refused :
    let s := atEdge 260
    let past := s.withRim { s.rim with fix := some { position := 1003148, speed := 260 } }
    (sent 50 1 18 [3, 1, 0]).Good ∧
    (past.active.berth .a).all (fun z => decide (arcAt z past.envelope.count past.lastFix.position 3 = z.length - z.margin)) ∧
      (granted .a 9 .standard .granted s).board.grants.get .a ≠ none ∧ (granted .b 3 .standard .granted s).holdsGrant 3 = true ∧
      (atLevel .park 9 s).wind.level = .park ∧ ¬ (atLevel .reduced 9 s).wind.level.code ≤ 1 ∧
      (atLevel .unload 9 s).boardingClosed = true ∧ s.listed 3 = false ∧ (after (.beginSweep who) aloft).listed 3 = true ∧
      (atEdge (-1)).lastFix.speed < 0 ∧ ¬ (atEdge 261).lastFix.speed.natAbs ≤ 260 ∧
      ¬ (atEdge 6).lastFix.speed.natAbs ≤ (atEdge 6).active.gov.tolerance ∧ ({ s with mode := .monitor } : State).mode = .monitor := by
  refine ⟨good_sent _ _ _ _ ?_, ?_⟩ <;> decide +kernel

theorem witness_gate_order :
    (∀ gate action : Byte, (gate = 0 ∨ gate = 1) → (action = 0 ∨ action = 1) → (sent 40 1 19 [gate, action]).Good) ∧
    wheel.treatmentOf .toField (sent 40 1 19 [0, 0]) = .screen ∧ wheel.orderSupervisor 1 = true ∧
    wheel.active.roleOf 40 = some (.station .a) ∧ wheel.board.grants.get .a = none ∧ wheel.boardingClosed = false ∧
    wheel.governor.latch = false ∧ (atLevel .unload 9 wheel).boardingClosed = true ∧
    (boarding.cabin 3).occupancy < boarding.loadLimit ∧
    (boarding.withCabin 3 (seated 32)).loadLimit ≤ ((boarding.withCabin 3 (seated 32)).cabin 3).occupancy := by
  refine ⟨?_, ?_⟩
  · rintro g a (rfl | rfl) (rfl | rfl) <;> exact good_sent _ _ _ _ (by decide +kernel)
  · decide +kernel

/-- The last grant while a commit is PENDING, cabin 3 at berth A. -/
def lastGrant : State := granted .a 3 .standard .granted (committing .pending)

theorem witness_locked_report :
    (sent 1 50 35 [3, 0]).Good ∧ boarding.active.roleOf 50 = some .hub ∧ boarding.present 3 = true ∧
      boarding.envelope.count ≤ 64 ∧ (boarding.grantOf 3).isSome ∧ boarding.policy.commit ≠ .pending ∧
      (lastGrant.grantOf 3).isSome ∧ lastGrant.policy.commit = .pending ∧ lastGrant.policy.commitBank = some .two ∧
      lastGrant.board.grants.get .b = none ∧ (after (fromField (sent 1 50 35 [3, 0])) lastGrant).policy.active = .two := by
  refine ⟨good_sent _ _ _ _ ?_, ?_⟩ <;> decide +kernel

/-- Reports of cabins 1 and N that end no grant: each state, and LOCKED with no grant. -/
theorem witness_door_report :
    (∀ p : List Byte, p = [1, 1] ∨ p = [40, 2] ∨ p = [3, 3] ∨ p = [4, 0] → (sent 1 50 35 p).Good) ∧
      boarding.present 1 = true ∧ boarding.present 40 = true ∧ boarding.grantOf 4 = none := by
  refine ⟨?_, by decide +kernel⟩
  rintro p (rfl | rfl | rfl | rfl) <;> exact good_sent _ _ _ _ (by decide +kernel)

theorem witness_rim_report :
    (sent 1 10 33 [15, 255, 255, 255, 6, 0]).Good ∧ wheel.active.roleOf 10 = some .encoder ∧
      wheel.policy.commit ≠ .pending := by
  refine ⟨good_sent _ _ _ _ ?_, ?_⟩ <;> decide +kernel

/-- A FAULT report; and the report at which cabin 3 leaves berth A LOCKED, with which the PENDING bank is swapped in. -/
theorem witness_rim_report_ends :
    (sent 1 10 33 [15, 255, 255, 255, 6, 1]).Good ∧ (sent 1 10 33 [15, 87, 8, 0, 250, 0]).Good ∧
      lastGrant.policy.commit = .pending ∧ lastGrant.noGrants = false ∧ lastGrant.reported 3 = some .a ∧
      (lastGrant.cabin 3).door = .locked ∧
      (lastGrant.active.berth .a).all (fun z => decide (z.length < arcAt z lastGrant.envelope.count 1005320 3)) ∧
      (after (fromField (sent 1 10 33 [15, 87, 8, 0, 250, 0])) lastGrant).policy.active = .two := by
  refine ⟨good_sent _ _ _ _ ?_, good_sent _ _ _ _ ?_, ?_⟩ <;> decide +kernel

/-- A PENDING commit with two LOCKED grants, of which the report ends the one at berth A: the commit waits. -/
theorem witness_rim_report_waits :
    let s := granted .b 22 .standard .granted lastGrant
    s.policy.commit = .pending ∧ s.noGrants = false ∧ (s.cabin 3).door = .locked ∧ (s.cabin 22).door = .locked ∧
      ZoneEvent.exit 3 .a .far ∈ s.zoneEvents 1005320 250 ∧ ZoneEvent.exit 22 .b .far ∉ s.zoneEvents 1005320 250 ∧
      ZoneEvent.exit 22 .b .near ∉ s.zoneEvents 1005320 250 ∧
      (let t := after (fromField (sent 1 10 33 [15, 87, 8, 0, 250, 0])) s
       t.board.grants.a = none ∧ t.board.grants.b.isSome ∧ t.policy.commit = .pending) := by decide +kernel

/-- Cabin 3 leaves berth A past L and cabin 40 has come nowhere; an entry, a withdraw point and an exit are raised. -/
theorem witness_zone_events_raised :
    ((39 : Fin 64).val < wheel.envelope.count) ∧ ZoneEvent.exit 3 .a .far ∈ wheel.zoneEvents 1005300 250 ∧
      ZoneEvent.withdraw 3 .a ∈ wheel.zoneEvents 1003200 250 ∧ ZoneEvent.entry 3 .a ∈ State.zoneEvents
        (wheel.withRim { wheel.rim with lastKnown := Vector.replicate 64 none }) 997500 250 := by decide +kernel

/-- Zone events with and without a grant of the cabin, with the door LOCKED and not, with the gate OPEN, UNKNOWN and CLOSED, and a
listed cabin's visit: empty, served, below the pass limit and at it. -/
theorem witness_zone_events_taken :
    let s (c : Cabin) := (boarding.withCabin 3 { c with mark := some .pending }).withSweep
      { boarding.sweep with state := .active, operator := true, list := [3, 12] }
    let off (c : Cabin) := (wheel.withCabin 40 { c with mark := some .pending }).withSweep
      { wheel.sweep with state := .active, operator := true, list := [40] }
    boarding.present 3 = true ∧ wheel.present 1 = true ∧ wheel.present 40 = true ∧ wheel.envelope.count ≤ 64 ∧
      boarding.mode = .screen ∧ boarding.active.nodeOf .hub = some 50 ∧ boarding.active.nodeOf (.station .a) = some 40 ∧
      (boarding.board.gates.get .a).entry ≠ .closed ∧ ((boarding.takeGates .a .closed .closed).board.gates.get .a).entry = .closed ∧
      (s (seated 0)).listed 3 = true ∧ (s (seated 0)).sweep.caused = true ∧ ((s { seated 2 with door := .opened }).cabin 3).door ≠ .locked ∧
      (off (seated 2)).served 40 = false ∧ ((off (seated 2)).setServed 40 true).served 40 = true ∧
      ((off { seated 2 with passes := 1 }).sweepExit 40 .a).cabin 40 = { seated 2 with passes := 2, mark := some .stuck } ∧
      ((off { seated 2 with passes := 0 }).sweepExit 40 .a).cabin 40 = { seated 2 with passes := 1, mark := some .passed } := by
  decide +kernel

/-- Totals of 0, 63 and one past each end, from an occupancy of 1. -/
theorem witness_count_report :
    (∀ p : List Byte, p = [40, 0, 1] ∨ p = [40, 62, 0] ∨ p = [40, 0, 2] ∨ p = [40, 63, 0] → (sent 1 41 36 p).Good) ∧
      wheel.active.roleOf 41 = some (.station .b) ∧ wheel.present 40 = true ∧
      ((wheel.withCabin 40 (seated 1)).cabin 40).occupancy = 1 := by
  refine ⟨?_, by decide +kernel⟩
  rintro p (rfl | rfl | rfl | rfl) <;> exact good_sent _ _ _ _ (by decide +kernel)

/-- A count that brings the granted cabin to its load limit of 32, one that leaves it at 31, one for another cabin; gate reports. -/
theorem witness_count_at_the_limit :
    (∀ p : List Byte, p = [3, 32, 0] ∨ p = [3, 31, 0] ∨ p = [4, 1, 0] → (sent 1 40 36 p).Good) ∧
      (sent 1 40 37 [0, 1]).Good ∧ (boarding.board.grants.get .a).map (·.cabin) = some 3 ∧
      (min boarding.envelope.seats (boarding.active.load boarding.wind.level) = 32) ∧ boarding.mode = .screen ∧
      (after (fromField (sent 1 40 36 [3, 32, 0])) boarding).path.fldTx = some (Frame.build 40 5 19 2 0 [0, 1]) ∧
      (after (fromField (sent 1 40 36 [3, 31, 0])) boarding).path.fldTx = none ∧
      (after (fromField (sent 1 40 37 [0, 1])) boarding).board.gates.get .a = { entry := .opened, exit := .closed } := by
  refine ⟨?_, good_sent _ _ _ _ (by decide +kernel), by decide +kernel⟩
  rintro p (rfl | rfl | rfl) <;> exact good_sent _ _ _ _ (by decide +kernel)

theorem witness_wind_report :
    (∀ p : List Byte, p = [2, 188, 1, 103, 0] ∨ p = [2, 189, 0, 0, 1] → (sent 1 20 34 p).Good) ∧
      wheel.active.roleOf 20 = some (.anemometer 0) ∧ (wheel.wind.channels[(0 : ChannelIx)]).state ≠ .unassigned := by
  refine ⟨?_, by decide +kernel⟩
  rintro p (rfl | rfl) <;> exact good_sent _ _ _ _ (by decide +kernel)

/-- Both transmitters idle, with frames in every queue, at both sides of the run count of 4. -/
theorem witness_transmit :
    let s (n : Nat) := (busy n).withPath { (busy n).path with supTx := none }
    (s 3).phase = .running ∧ (s 3).path.fldTx = none ∧ (s 3).path.supTx = none ∧ (s 3).path.runCount < 4 ∧
      4 ≤ (s 4).path.runCount ∧ (s 4).path.supForward ≠ [] ∧ (s 4).path.part ≠ [] ∧ (busy 3).path.supTx ≠ none ∧
      wheel.path.supForward = [] ∧ wheel.path.part = [] ∧ wheel.notices.queue = [] ∧ wheel.notices.atClose = [] := by
  decide +kernel

theorem witness_notice_frames :
    let s := (queued 5).withNotices { NoticeUnit.reset with queue := [{ note := record .cabin 1, lastGood := false }] }
    s.phase = .running ∧ s.notices.queue ≠ [] ∧ s.path.part.length < 6 ∧ 6 ≤ (queued 6).path.part.length := by decide +kernel

theorem witness_notice_queue :
    crowded.freeze = .flowing ∧ crowded.queue.length < 32 ∧ 32 ≤ (crowded.enter (record .stop 0)).queue.length ∧
      (crowded.drain.freeze ≠ .flowing) ∧
      (wheel.withNotices { NoticeUnit.reset with freeze := .reported }).Takes ∧ wheel.Takes := by
  unfold State.Takes; decide +kernel

theorem witness_combining :
    NoticeKind.clamped.combinable = true ∧ NoticeKind.level.combinable = false ∧
      (record .clamped 9).sameKey (record .clamped 1) = true ∧ (record .clamped 0).sameKey (record .clamped 1) = false ∧
      ([0, 1, 2, 3, 4, 5, 6, 7].map (record .cabin)).length = 8 ∧ crowded.queue.length + 1 ≤ 32 := by decide +kernel

/-- The ends of the day: 23:59:59 is in range, 24 hours and 60 seconds are not; a clock at 86,399 rolls over. -/
theorem witness_clock :
    ((23 : Byte).toNat ≤ 23 ∧ (59 : Byte).toNat ≤ 59) ∧ ¬ ((24 : Byte).toNat ≤ 23) ∧ ¬ ((60 : Byte).toNat ≤ 59) ∧
      (bench.withClock { bench.clock with time := 86399 }).clock.time = 86399 ∧ bench.clock.set = true ∧
      bench.clock.time < 86399 ∧ State.reset.clock.set = false := by decide +kernel

/-- A level below its target, a clear one with a countdown of 1 and of 2, and one that is not clear. -/
theorem witness_level :
    (atLevel .reduced 1 wheel).levelClear = true ∧ (atLevel .reduced 2 wheel).wind.countdown = 2 ∧
      ((atLevel .reduced 1 wheel).withWind { (atLevel .reduced 1 wheel).wind with floor := .reduced }).levelClear = false ∧
      wheel.wind.level.code < ((wheel.withWind { wheel.wind with floor := .watch }).targetLevel).code := by decide +kernel

/-- The rows of R96's table, on channels whose rings agree: one with samples, one that repeats its held second, one with none held,
one at its third empty second, and one that is not at work. -/
theorem witness_channel_seconds :
    let x := liveChannel 20 50 40
    let fresh : Channel := { Channel.unassigned with state := .warming, node := some 20 }
    x.RingsAgree ∧ fresh.RingsAgree ∧ ({ x with bucketCount := 1 } : Channel).RingsAgree ∧
      ({ x with stale := 2 } : Channel).RingsAgree ∧ Channel.unassigned.RingsAgree ∧
      x.stale ≤ 1 ∧ x.held = some { max := 50, mean := 40 } ∧ fresh.held = none ∧ fresh.bucketCount = 0 := by
  refine ⟨⟨?_, ?_, ?_, ?_, ?_, ?_, ?_⟩, ⟨?_, ?_, ?_, ?_, ?_, ?_, ?_⟩, ⟨?_, ?_, ?_, ?_, ?_, ?_, ?_⟩, ⟨?_, ?_, ?_, ?_, ?_, ?_, ?_⟩,
    ⟨?_, ?_, ?_, ?_, ?_, ?_, ?_⟩, ?_⟩ <;> decide +kernel

/-- A level change and CLOSE leaving at a part that takes requests; a swap, a restart and a revert. -/
theorem witness_beacons :
    let s := wheel.withSweep { wheel.sweep with state := .done, close := true }
    s.Takes ∧ s.sweep.close = true ∧ (after (.openBoarding who) s).sweep.close = false ∧
      (after (.setOperatorFloor who 1) wheel).wind.level ≠ wheel.wind.level ∧ s.policy.commit = .idle ∧
      s.policy.active ≠ .floor ∧ (committing .pending).policy.commitBank ≠ none ∧ (committing .pending).noGrants = true := by
  unfold State.Takes; decide +kernel

theorem witness_quarter_tick :
    let s := wheel.withDrive 0 (silent 25 .substituting)
    s.phase = .running ∧ (s.drive 0).state = .substituting ∧ (s.drive 1).state ≠ .substituting ∧ s.mode = .screen ∧
      s.active.nodeOf (.drive 0) = some 30 := by decide +kernel

/-- Timers at their end, with ms left and stopped. -/
theorem witness_timers :
    let s (n : Nat) := (wheel.withDrive 7 { silent 1 .following with stale := some n }).withRim { wheel.rim with watch := some n }
    wheel.phase = .running ∧ ((s 0).drive 7).stale = some 0 ∧ ((s 300).drive 7).stale = some 300 ∧
      ((wheel.withDrive 7 { silent 1 .held with stale := some 0 }).drive 7).state ≠ .following ∧ (wheel.drive 0).stale = none ∧
      (s 0).rim.watch = some 0 ∧ (s 300).rim.watch = some 300 ∧ State.reset.rim.watch = none := by decide +kernel

theorem witness_channel_steps :
    ((wheel.wind.channels[(3 : ChannelIx)]).state = .live ∧ (wheel.wind.channels[(3 : ChannelIx)]).bucketCount = 0) ∧
      (let x : Channel := { liveChannel 22 50 40 with state := .warming, warm := 2, bucketCount := 1 }
       x.state = .warming ∧ x.warm = 2 ∧ 0 < x.bucketCount) := by decide +kernel

theorem witness_operator_floor :
    wheel.Takes ∧ Level.ofCode (4 : Byte).toNat = some .park ∧ Level.ofCode (0 : Byte).toNat = some .opened ∧
      wheel.belowQuorum = false ∧ 4 < (5 : Byte).toNat ∧
      (wheel.withWind { wheel.wind with live := 1 }).belowQuorum = true ∧
      wheel.wind.level.code < wheel.active.floorsRecord.blind.code := by unfold State.Takes; decide +kernel

theorem witness_sweep_requests :
    aloft.Takes ∧ aloft.envelope.count ≤ 64 ∧ aloft.sweep.operator = false ∧ aloft.sweep.close = false ∧
      (aloft.withSweep { aloft.sweep with operator := true, close := true }).sweep.wind = false := by
  unfold State.Takes; decide +kernel

/-- Cabins 1 and N are in range, 0 and N + 1 are not; an occupancy of 63 is, 64 is not; a listed cabin, and one to join. -/
theorem witness_cabin_requests :
    wheel.Takes ∧ wheel.envelope.count ≤ 64 ∧ 1 ≤ (1 : Byte).toNat ∧ (40 : Byte).toNat ≤ wheel.envelope.count ∧
      ¬ ((41 : Byte).toNat ≤ wheel.envelope.count) ∧ (63 : Byte).toNat ≤ 63 ∧ ¬ ((64 : Byte).toNat ≤ 63) ∧
      (after (.beginSweep who) aloft).listed 3 = true ∧ (after (.beginSweep who) aloft).listed 5 = false := by
  unfold State.Takes; decide +kernel

theorem witness_tables :
    (15 : Byte).toNat ≤ 15 ∧ 15 < (16 : Byte).toNat ∧ Table.ofIdent 1 = some .nodeRoles ∧
      BankNo.ofCode (2 : Byte).toNat = some .two ∧ 2 < (3 : Byte).toNat ∧ (15 : Byte).toNat < Table.nodeRoles.entries ∧
      Table.nodeRoles.entries ≤ (16 : Byte).toNat ∧ (16 : Byte).toNat ≤ 16 ∧ 16 < (17 : Byte).toNat ∧ Table.ofIdent 0 = none := by decide +kernel

/-- Slot 23 and both defaults of the map are written together; a treatment of 4 and an EMPTY default are refused. -/
theorem witness_write_staging :
    State.reset.Takes ∧ State.reset.policy.commit = .idle ∧ LoadBank.ofCode (1 : Byte).toNat = some State.reset.policy.staging ∧
      wheel.policy.staging = .two ∧ (committing .walking).policy.commit ≠ .idle ∧
      Table.treatmentMap.writeBytes 23 3 = 10 ∧
      (Bank.empty.writeEntries .treatmentMap 23 3 [1, 0, 0, 254, 0, 255, 31, 255, 2, 3]).isSome = true ∧
      (Bank.empty.writeEntry .treatmentMap 23 [1, 0, 0, 254, 0, 255, 31, 255]).isSome = true ∧
      (Bank.empty.writeEntry .treatmentMap 23 [4, 0, 0, 254, 0, 255, 31, 255]).isSome = false ∧
      (Bank.empty.writeEntry .treatmentMap 24 [0]).isSome = false ∧
      [1, 0, 0, 254, 0, 255, 31, 255].length = Table.treatmentMap.writeSize 23 := by
  unfold State.Takes; decide +kernel

theorem witness_commit :
    (committing .walking).Takes ∧ (committing .walking).policy.commit ≠ .idle ∧ wheel.policy.commit = .idle ∧
      LoadBank.ofCode (2 : Byte).toNat = some wheel.policy.staging ∧ LoadBank.ofCode (1 : Byte).toNat = some .one ∧
      (committing .pending).policy.timer = some 0 ∧ (committing .pending).policy.deferred = false ∧
      (committing .walking).policy.commitBank = some .two ∧ (committing .walking).policy.walk = 1 ∧
      commitWalk ((committing .walking).loadBank .two) (committing .walking).envelope = none ∧
      (commitWalk (wheel.loadBank .two) wheel.envelope).isSome = true ∧ wheel.noGrants = true ∧ boarding.noGrants = false := by
  unfold State.Takes; decide +kernel

/-- The ends of a commit with a restart deferred, and a walk that fails with one. -/
theorem witness_commit_deferred :
    let s (c : CommitState) := (committing c).withPolicy { (committing c).policy with deferred := true }
    let blank := (s .walking).withPolicy { (s .walking).policy with bank2 := Bank.empty }
    (s .walking).Takes ∧ (s .pending).policy.timer = some 0 ∧ (s .pending).policy.deferred = true ∧ (s .pending).noGrants = true ∧
      (commitWalk (blank.loadBank .two) blank.envelope).isSome = true ∧ (after .swap (s .pending)).rim.known = false := by
  unfold State.Takes; decide +kernel

theorem witness_revert :
    wheel.Takes ∧ wheel.policy.active ≠ .floor ∧ State.reset.Takes ∧ State.reset.policy.active = .floor ∧
      (after (.commitStaging who 1) State.reset).policy.commit = .walking ∧
      (after (.commitStaging who 1) State.reset).policy.active = .floor ∧ (after (.commitStaging who 1) State.reset).Takes := by
  unfold State.Takes; decide +kernel

theorem witness_restart :
    (wheel.withPolicy { wheel.policy with deferred := true }).policy.deferred = true ∧ wheel.Takes ∧
      wheel.policy.commit = .idle := by unfold State.Takes; decide +kernel

/-- Every field at both ends of its range, and one past them. -/
theorem witness_envelope :
    State.reset.Takes ∧ State.reset.envelope.locked = false ∧ wheel.envelope.locked = true ∧
      wheel.envelope.complete = true ∧ wheel.envelope.supNode ≠ wheel.envelope.ownNode ∧
      State.reset.envelope.complete = false ∧ envelopeRange 0 = some (8, 64) ∧ envelopeRange 7 = some (150, 400) ∧
      ((65535 : BitVec 16).toNat > 600) ∧ 7 < (8 : Byte).toNat ∧ State.reset.envelope.count ≠ 8 := by
  unfold State.Takes; decide +kernel

theorem witness_stop :
    wheel.Takes ∧ wheel.governor.latch = false ∧ State.reset.governor.latch = true ∧ State.reset.stopIn = false ∧
      ({ State.reset with stopIn := true } : State).stopIn = true := by unfold State.Takes; decide +kernel

theorem witness_resets :
    wheel.phase ≠ .unpowered ∧ ({ wheel with phase := .unpowered } : State).phase = .unpowered ∧
      wheel.enterReset.phase = .heldInReset := by decide +kernel

end Sys2Proof.Tests
end

section
/-! PROOFS. The origin queue never lacks room (R11, R12): the subjects of each kind are few, so a queue without two frames of one
kind and subject is short, and origination keeps it so. -/

namespace Sys2Proof.Machine

/-! ## The places of the origin queue -/

/-- The kinds and subjects of one kind, for the drives and for a kind `mk` of the berths, and of all four: the places that R12
counts. -/
def OriginKey.substitutes : List OriginKey := driveIndices.map .substitute
def OriginKey.atBerths (mk : Berth → OriginKey) : List OriginKey := [mk .a, mk .b]
def OriginKey.places : List OriginKey := substitutes ++ atBerths .doorLock ++ atBerths .gateClose ++ atBerths .beacon

theorem OriginKey.substitute_mem (drive : DriveIx) : .substitute drive ∈ substitutes := by
  refine List.mem_map_of_mem ?_
  revert drive
  decide

theorem OriginKey.mem_atBerths (mk : Berth → OriginKey) (berth : Berth) : mk berth ∈ atBerths mk := by
  cases berth <;> simp [atBerths]

theorem OriginKey.mem_places (k : OriginKey) : k ∈ places := by
  unfold places
  cases k with
  | substitute drive => simp [substitute_mem drive]
  | doorLock berth => simp [mem_atBerths]
  | gateClose berth => simp [mem_atBerths]
  | beacon berth => simp [mem_atBerths]

/-- Of keys that differ pairwise, no more answer to `p` than there are places that do. -/
theorem OriginKey.length_filter_le_places {keys places : List OriginKey} {p : OriginKey → Bool} (h : keys.Nodup)
    (hp : ∀ k, p k = true → k ∈ places) : (keys.filter p).length ≤ places.length :=
  ((h.filter p).subperm fun k hk => hp k (List.mem_filter.1 hk).2).length_le

/-! ## Placing and originating -/

theorem mem_placeOrigin (o : Originated) (l : List Originated) : o ∈ placeOrigin o l := by
  induction l with
  | nil => exact List.mem_singleton_self o
  | cons w l ih =>
    unfold placeOrigin
    split
    · exact List.mem_cons_self
    · exact List.mem_cons_of_mem w ih

theorem placeOrigin_of_key_notMem {o : Originated} {l : List Originated} (h : o.key ∉ l.map Originated.key) :
    placeOrigin o l = l ++ [o] := by
  induction l with
  | nil => rfl
  | cons w l ih =>
    obtain ⟨hw, hl⟩ := not_or.1 (mt List.mem_cons.2 h)
    rw [placeOrigin, if_neg (Ne.symm hw), ih hl, List.cons_append]

section
variable (s : State) (key : OriginKey) (dest cls : Byte) (payload : List Byte)

@[simp] theorem State.originate_notices : (s.originate key dest cls payload).notices = s.notices := rfl

theorem State.originate_admits :
    { key := key, frame := Frame.build dest s.envelope.own cls flagOrigin s.path.fieldSeq payload } ∈
      (s.originate key dest cls payload).path.origin := mem_placeOrigin _ _

theorem State.originate_origin_of_notMem (h : key ∉ s.path.originKeys) :
    (s.originate key dest cls payload).path.origin =
      s.path.origin ++ [{ key := key, frame := Frame.build dest s.envelope.own cls flagOrigin s.path.fieldSeq payload }] :=
  placeOrigin_of_key_notMem h

theorem State.originate_originKeys :
    (s.originate key dest cls payload).path.originKeys =
      if key ∈ s.path.originKeys then s.path.originKeys else s.path.originKeys ++ [key] := placeOrigin_keys _ _

theorem State.originate_originKeys_nodup (h : s.path.originKeys.Nodup) :
    (s.originate key dest cls payload).path.originKeys.Nodup := placeOrigin_nodup _ _ h

end

/-! ## The room -/

theorem FramePath.origin_length_le {p : FramePath} (h : p.originKeys.Nodup) : p.origin.length ≤ 14 :=
  calc p.origin.length = p.originKeys.length := List.length_map _ |>.symm
    _ ≤ OriginKey.places.length := (h.subperm fun k _ => k.mem_places).length_le
    _ = 14 := rfl

/-- Settles O19: R12's count by kind from the places of each kind, and admission from what `placeOrigin` does to the keys. -/
theorem originQueueNeverLacksRoom : Obligations.OriginQueueNeverLacksRoom := by
  intro s h
  refine ⟨FramePath.origin_length_le h, OriginKey.length_filter_le_places (places := OriginKey.substitutes) h ?substitutes,
    OriginKey.length_filter_le_places (places := OriginKey.atBerths .doorLock) h ?doorLocks,
    OriginKey.length_filter_le_places (places := OriginKey.atBerths .gateClose) h ?gateCloses,
    OriginKey.length_filter_le_places (places := OriginKey.atBerths .beacon) h ?beacons,
    fun key dest cls payload => ⟨?notices, ?nodup, ?admitted, ?inPlace, ?atTail⟩⟩
  case substitutes => rintro (drive | _ | _ | _) ⟨⟩; exact OriginKey.substitute_mem drive
  case doorLocks => rintro (_ | berth | _ | _) ⟨⟩; exact OriginKey.mem_atBerths _ berth
  case gateCloses => rintro (_ | _ | berth | _) ⟨⟩; exact OriginKey.mem_atBerths _ berth
  case beacons => rintro (_ | _ | _ | berth) ⟨⟩; exact OriginKey.mem_atBerths _ berth
  case notices => exact s.originate_notices key dest cls payload
  case nodup => exact s.originate_originKeys_nodup key dest cls payload h
  case admitted => exact s.originate_admits key dest cls payload
  case inPlace => exact fun waits => (s.originate_originKeys key dest cls payload).trans (if_pos waits)
  case atTail => exact s.originate_origin_of_notMem key dest cls payload

end Sys2Proof.Machine
end

section
/-! PROOFS. The door-stop condition, the creep condition and the creep value (R85, R86): what the sweeps over the cabins and over
the grants find, and the least of the creep ceilings. -/

namespace Sys2Proof.Machine

variable {s : State}

/-! ## Cabins and grants -/

theorem State.mem_cabinNumbers {c : Nat} : c ∈ s.cabinNumbers ↔ 1 ≤ c ∧ c ≤ s.envelope.count := by
  rw [State.cabinNumbers, List.mem_map]
  constructor
  · rintro ⟨i, hi, rfl⟩
    exact ⟨Nat.succ_pos i, List.mem_range.1 hi⟩
  · rintro ⟨pos, le⟩
    exact ⟨c - 1, List.mem_range.2 (by omega), Nat.sub_add_cancel pos⟩

theorem State.mem_grants {g : Grant} : g ∈ s.grants ↔ ∃ berth, s.board.grants.get berth = some g := by
  rw [State.grants, List.mem_append, Option.mem_toList, Option.mem_toList]
  constructor
  · rintro (atA | atB)
    · exact ⟨.a, atA⟩
    · exact ⟨.b, atB⟩
  · rintro ⟨_ | _, held⟩
    · exact .inl held
    · exact .inr held

theorem State.any_cabinNumbers {p : Nat → Bool} :
    s.cabinNumbers.any p = true ↔ ∃ c, 1 ≤ c ∧ c ≤ s.envelope.count ∧ p c = true := by
  simp only [List.any_eq_true, State.mem_cabinNumbers, and_assoc]

theorem State.any_grants {p : Grant → Bool} :
    s.grants.any p = true ↔ ∃ berth g, s.board.grants.get berth = some g ∧ p g = true := by
  simp only [List.any_eq_true, State.mem_grants, ← exists_and_right]
  exact exists_comm

theorem DoorState.stops_iff (d : DoorState) : d.stops = true ↔ d = .unlocked ∨ d = .opened ∨ d = .fault := by
  cases d <;> simp [DoorState.stops]

theorem Grant.creeps_iff (g : Grant) :
    g.creeps = true ↔ g.kind = .standard ∧ (g.state = .granted ∨ g.state = .withdrawing) := by
  rw [Grant.creeps, Bool.and_eq_true, decide_eq_true_iff, decide_eq_true_iff]
  cases g.state <;> simp

/-! ## The conditions -/

theorem State.doorStopNow_iff :
    s.doorStopNow = true ↔
      (∃ c, 1 ≤ c ∧ c ≤ s.envelope.count ∧ s.holdsGrant c = false ∧
        ((s.cabin c).door = .unlocked ∨ (s.cabin c).door = .opened ∨ (s.cabin c).door = .fault)) ∨
      ∃ berth g, s.board.grants.get berth = some g ∧ (g.state = .late ∨ g.kind = .assist) := by
  rw [State.doorStopNow, Bool.or_eq_true, State.any_cabinNumbers, State.any_grants]
  simp only [Bool.and_eq_true, Bool.or_eq_true, Bool.not_eq_true', decide_eq_true_iff, DoorState.stops_iff,
    and_comm (b := s.holdsGrant _ = false)]

theorem State.creepNow_iff :
    s.creepNow = true ↔
      (∃ berth g, s.board.grants.get berth = some g ∧ g.kind = .standard ∧
        (g.state = .granted ∨ g.state = .withdrawing)) ∨
      ∃ c, 1 ≤ c ∧ c ≤ s.envelope.count ∧ (s.cabin c).door = .unknown := by
  rw [State.creepNow, Bool.or_eq_true, State.any_grants, State.any_cabinNumbers]
  simp only [Grant.creeps_iff, decide_eq_true_iff]

/-! ## The creep value -/

theorem least_eq_min? (l : List Nat) : least l = l.min? := by cases l <;> rfl

/-- A list that holds something has a least member, below each of its members. -/
theorem least_of_mem {l : List Nat} {x : Nat} (h : x ∈ l) : ∃ m ∈ l, least l = some m ∧ ∀ y ∈ l, m ≤ y := by
  obtain ⟨m, hm⟩ := Option.isSome_iff_exists.1 (List.isSome_min?_of_mem h)
  obtain ⟨mem, le⟩ := List.min?_eq_some_iff.1 hm
  exact ⟨m, mem, (least_eq_min? l).trans hm, le⟩

theorem State.mem_creepCeilings {p : Berth → Bool} {x : Nat} :
    x ∈ s.creepCeilings p ↔ ∃ berth z, p berth = true ∧ s.active.berth berth = some z ∧ x = z.creep := by
  have every (berth : Berth) : berth ∈ [Berth.a, Berth.b] := by cases berth <;> simp
  simp [State.creepCeilings, List.mem_filterMap, every, eq_comm (a := x)]

theorem State.creepCeilings_eq_nil {p : Berth → Bool} (h : ∀ berth z, p berth = true → s.active.berth berth ≠ some z) :
    s.creepCeilings p = [] := by
  refine List.eq_nil_iff_forall_not_mem.2 fun x hx => ?_
  obtain ⟨berth, z, hp, hz, -⟩ := State.mem_creepCeilings.1 hx
  exact h berth z hp hz

/-- Where `p` picks a berth of the bank, the least creep ceiling of those it picks is one of them, and below each of them. -/
theorem State.least_creepCeilings {p : Berth → Bool} {berth : Berth} {z : BerthEntry} (hp : p berth = true)
    (hz : s.active.berth berth = some z) :
    ∃ m, least (s.creepCeilings p) = some m ∧ m ≤ z.creep ∧
      ∃ berth' z', p berth' = true ∧ s.active.berth berth' = some z' ∧ m = z'.creep := by
  have mem : z.creep ∈ s.creepCeilings p := State.mem_creepCeilings.2 ⟨berth, z, hp, hz, rfl⟩
  obtain ⟨m, hm, eq, le⟩ := least_of_mem mem
  exact ⟨m, eq, le _ mem, State.mem_creepCeilings.1 hm⟩

theorem State.creepValueNow_of_creeping {m : Nat} (h : least (s.creepCeilings s.creepsAt) = some m) :
    s.creepValueNow = m := by
  rw [State.creepValueNow, h, Option.getD_some]

theorem State.creepValueNow_of_none_creeping (h : s.creepCeilings s.creepsAt = []) :
    s.creepValueNow = (least (s.creepCeilings fun _ => true)).getD 0 := by
  rw [State.creepValueNow, h, least, Option.getD_none]

/-- Settles O17: each condition is what its sweeps over cabins and grants find, and the creep value is the least of the ceilings of
the berths that creep, or of all the bank's berths where none does. -/
theorem doorStopAndCreep : Obligations.DoorStopAndCreep := by
  intro s
  refine ⟨State.doorStopNow_iff, State.creepNow_iff, ?creeping, ?idle, ?noBerth⟩
  case creeping =>
    intro berth z creeps hz
    obtain ⟨m, eq, le, attained⟩ := State.least_creepCeilings creeps hz
    rw [State.creepValueNow_of_creeping eq]
    exact ⟨le, attained⟩
  case idle =>
    intro noneCreeps berth z hz
    have nil : s.creepCeilings s.creepsAt = [] := State.creepCeilings_eq_nil fun berth' _ creeps _ => by
      simp [noneCreeps berth'] at creeps
    obtain ⟨m, eq, le, berth', z', -, attained⟩ := State.least_creepCeilings (p := fun _ => true) rfl hz
    rw [State.creepValueNow_of_none_creeping nil, eq, Option.getD_some]
    exact ⟨le, berth', z', attained⟩
  case noBerth =>
    intro noneListed
    have nil (p : Berth → Bool) : s.creepCeilings p = [] :=
      State.creepCeilings_eq_nil fun berth z _ hz => by simp [noneListed berth] at hz
    rw [State.creepValueNow_of_none_creeping (nil _), nil, least, Option.getD_none]

end Sys2Proof.Machine
end

section
/-! PROOFS. What a good frame meets at a port (R2 to R5), and an order to the field with treatment SCREEN up to its screen (R25,
R31, R32). -/

namespace Sys2Proof.Machine

/-! ## A good frame's bytes (R2 to R4, R20) -/

theorem beNat_be2 (n : Nat) : beNat (be2 n) % 65536 = n % 65536 := by
  simp only [beNat, be2, byte, List.foldl_cons, List.foldl_nil, BitVec.toNat_ofNat]
  omega

theorem ofNat_beNat_be2 (x : BitVec 16) : BitVec.ofNat 16 (beNat (be2 x.toNat)) = x := by
  apply BitVec.eq_of_toNat_eq
  rw [BitVec.toNat_ofNat, beNat_be2, Nat.mod_eq_of_lt x.isLt]

theorem be2_length (n : Nat) : (be2 n).length = 2 := rfl

theorem Frame.body_length (f : Frame) : f.body.length = 6 + f.payload.length := by
  rw [Frame.body, List.length_append]; rfl

theorem Frame.bytes_length (f : Frame) : f.bytes.length = f.body.length + 2 := List.length_append

theorem Frame.Good.payload_length_le {f : Frame} (good : f.Good) : f.payload.length ≤ 48 := by
  obtain ⟨form, -⟩ := good
  simp only [formOk, Bool.and_eq_true, decide_eq_true_iff] at form
  obtain ⟨⟨⟨le, -⟩, -⟩, -⟩ := form
  exact le

theorem splitFrame_bytes {f : Frame} (h : f.payload.length ≤ 48) :
    splitFrame f.bytes = some (f, f.payload.length) := by
  have long : ¬ (f.payload ++ be2 f.check.toNat).length < 2 := by simp [be2_length]
  have len : (f.payload ++ be2 f.check.toNat).length - 2 = f.payload.length := by simp [be2_length]
  have lenByte : (byte f.payload.length).toNat = f.payload.length := by
    rw [byte, BitVec.toNat_ofNat]; omega
  simp only [Frame.bytes, Frame.body, List.cons_append, List.nil_append, splitFrame, long, if_false, len,
    List.take_left, List.drop_left, ofNat_beNat_be2, lenByte]

/-- A staging point keeps every byte of a good frame, which fills at most its 56. -/
theorem Staging.fill_bytes {f : Frame} (good : f.Good) :
    Staging.fill f.bytes false = { bytes := f.bytes, overran := false, badStop := false } := by
  have fits : f.bytes.length ≤ 56 := by
    have := good.payload_length_le
    rw [f.bytes_length, f.body_length]; omega
  rw [Staging.fill, List.take_of_length_le fits, decide_eq_false (by omega)]

theorem judge_fill_bytes {f : Frame} (good : f.Good) : judge (Staging.fill f.bytes false) = .taken f := by
  have ⟨form, check⟩ := good
  have body : f.bytes.take (f.bytes.length - 2) = f.body := by
    rw [f.bytes_length, Nat.add_sub_cancel, Frame.bytes, List.take_left]
  simp [Staging.fill_bytes good, judge, splitFrame_bytes good.payload_length_le, body, check, form]

theorem exec_frameArrival (p : Port) (bytes : List Byte) (badStop : Bool) (s : State) :
    exec (.frameArrival p bytes badStop) s = .next (s.takeEvent fun s => s.arrive p bytes badStop) := rfl

theorem State.arrive_good {f : Frame} (p : Port) (s : State) (good : f.Good) :
    s.arrive p f.bytes false = (s.received p).sortFrame p f := by
  rw [State.arrive, State.judgeArrival, judge_fill_bytes good]; rfl

/-- A good frame that comes to a part at work is walked by the Sorter, and the event closes. -/
theorem exec_frameArrival_good {f : Frame} {s : State} (p : Port) (running : s.phase = .running) (good : f.Good) :
    exec (.frameArrival p f.bytes false) s = .next ((s.received p).sortFrame p f).close := by
  rw [exec_frameArrival, State.takeEvent_running running, s.arrive_good p good]

/-! ## An order to the field with treatment SCREEN (R25, R31, R32) -/

variable {f : Frame} {s : State}

theorem State.sortFrame_screened_order (order : f.kind.screened = true) (other : f.dest ≠ s.envelope.own)
    (screen : s.treatmentOf .toField f = .screen) : s.sortFrame .supervisor f = s.screenOrder f := by
  have fieldOrder : isFieldOrder .toField f = true := by simp [isFieldOrder, order]
  simp [State.sortFrame, other, State.treat, directionOf, screen, fieldOrder]

theorem State.screenOrder_from_supervisor (sup : s.orderSupervisor f.src = true) (one : f.dest ≠ 255) :
    s.screenOrder f = s.toScreen f := by
  rw [State.screenOrder, if_neg (by simp [sup]), if_neg one]

/-- An order of a screened class from a supervisor to one node of the field is judged by its screen, and the event closes. -/
theorem exec_frameArrival_order (running : s.phase = .running) (good : f.Good) (order : f.kind.screened = true)
    (other : f.dest ≠ s.envelope.own) (one : f.dest ≠ 255) (screen : s.treatmentOf .toField f = .screen)
    (sup : s.orderSupervisor f.src = true) :
    exec (.frameArrival .supervisor f.bytes false) s = .next ((s.received .supervisor).toScreen f).close := by
  have sorted : (s.received .supervisor).sortFrame .supervisor f = (s.received .supervisor).screenOrder f :=
    State.sortFrame_screened_order order other screen
  have judged : (s.received .supervisor).screenOrder f = (s.received .supervisor).toScreen f :=
    State.screenOrder_from_supervisor sup one
  rw [exec_frameArrival_good .supervisor running good, sorted, judged]

end Sys2Proof.Machine
end

section
/-! PROOFS. The gate screen (R89, R90): its verdict on each order, check by check, and what a GATE ORDER's arrival makes of it. -/

namespace Sys2Proof.Machine

variable {s : State} {f : Frame} {berth : Berth}

/-! ## The verdicts -/

theorem State.screenGate_close (exit : Bool) : s.screenGate berth exit true f = s.offerForward .field f := rfl

theorem State.screenGate_exit_granted (held : s.board.grants.get berth ≠ none) :
    s.screenGate berth true false f = s.offerForward .field f := by
  simp [State.screenGate, State.judgeExitOpen, Option.isSome_iff_ne_none, held]

theorem State.screenGate_exit_noGrant (free : s.board.grants.get berth = none) :
    s.screenGate berth true false f = s.refuseOrder .noGrant f := by
  simp [State.screenGate, State.judgeExitOpen, free]

theorem State.screenGate_entry_refused {r : Reason} (h : s.judgeEntryOpen berth = some r) :
    s.screenGate berth false false f = s.refuseOrder r f := by
  simp [State.screenGate, h]

theorem State.screenGate_entry_passed (h : s.judgeEntryOpen berth = none) :
    s.screenGate berth false false f = s.offerForward .field f := by
  simp [State.screenGate, h]

theorem State.judgeEntryOpen_closed (closed : s.boardingClosed = true) :
    s.judgeEntryOpen berth = some .gateClosedBoarding := if_pos closed

section
variable (welcome : s.boardingClosed = false)
include welcome

theorem State.judgeEntryOpen_latched (latched : s.governor.latch = true) :
    s.judgeEntryOpen berth = some .stopLatched := by
  simp [State.judgeEntryOpen, welcome, latched]

variable (unlatched : s.governor.latch = false)
include unlatched

theorem State.judgeEntryOpen_noGrant (notGranted : ¬ ∃ g, s.board.grants.get berth = some g ∧ g.state = .granted) :
    s.judgeEntryOpen berth = some .noGrant := by
  cases held : s.board.grants.get berth with
  | none => simp [State.judgeEntryOpen, welcome, unlatched, held]
  | some g =>
    have other : g.state ≠ .granted := fun granted => notGranted ⟨g, held, granted⟩
    simp [State.judgeEntryOpen, welcome, unlatched, held, other]

/-- The load limit is the last check: it alone judges an entry opening at a GRANTED grant. -/
theorem State.judgeEntryOpen_granted {g : Grant} (held : s.board.grants.get berth = some g) (granted : g.state = .granted) :
    s.judgeEntryOpen berth = if s.loadLimit ≤ (s.cabin g.cabin).occupancy then some .loadLimit else none := by
  simp [State.judgeEntryOpen, welcome, unlatched, held, granted]

end

/-! ## A GATE ORDER at its screen -/

theorem State.refuseOrder_gateOrder (r : Reason) (kind : f.kind = .gateOrder) :
    s.refuseOrder r f =
      if s.mode = .monitor then (s.post .refused true f.dest (byte r.code) f.cls f.dest f.src).offerForward .field f
      else s.post .refused false f.dest (byte r.code) f.cls f.dest f.src := by
  simp [State.refuseOrder, State.postRefused, Frame.refusedSubject, kind]

theorem State.toScreen_gateOrder {gate action : Byte} (kind : f.kind = .gateOrder) (payload : f.payload = [gate, action])
    (station : s.active.roleOf f.dest = some (.station berth)) :
    s.toScreen f = s.screenGate berth (gate == 1) (action == 1) f := by
  simp [State.toScreen, kind, payload, station]

/-- A GATE ORDER from a supervisor to the station of a berth leaves what that berth's gate screen makes of it, and the event
closes. -/
theorem exec_frameArrival_gateOrder {gate action : Byte} {t : State} (running : s.phase = .running) (good : f.Good)
    (kind : f.kind = .gateOrder) (payload : f.payload = [gate, action]) (other : f.dest ≠ s.envelope.own) (one : f.dest ≠ 255)
    (screen : s.treatmentOf .toField f = .screen) (sup : s.orderSupervisor f.src = true)
    (station : s.active.roleOf f.dest = some (.station berth))
    (made : (s.received .supervisor).screenGate berth (gate == 1) (action == 1) f = t) :
    exec (.frameArrival .supervisor f.bytes false) s = .next t.close := by
  have order : f.kind.screened = true := by rw [kind]; rfl
  have gateScreen : (s.received .supervisor).toScreen f =
      (s.received .supervisor).screenGate berth (gate == 1) (action == 1) f :=
    State.toScreen_gateOrder kind payload station
  rw [exec_frameArrival_order running good order other one screen sup, gateScreen, made]

/-- Settles O28: the order reaches the gate screen of its berth, whose verdict decides each clause. -/
theorem gateOrderIsScreened : Obligations.GateOrderIsScreened := by
  intro f gate action berth s running good kind payload other one screen sup station r passes refused
  have made {t : State} := exec_frameArrival_gateOrder (t := t) running good kind payload other one screen sup station
  have pass (h : r.screenGate berth (gate == 1) (action == 1) f = r.offerForward .field f) : passes := made h
  have refuse {code : Byte} (reason : Reason) (hcode : byte reason.code = code)
      (h : r.screenGate berth (gate == 1) (action == 1) f = r.refuseOrder reason f) : refused code :=
    hcode ▸ made (h.trans (State.refuseOrder_gateOrder reason kind))
  refine ⟨?close, ?exitGranted, ?exitNoGrant, ?entryClosed, ?entryLatched, ?entryNoGrant, ?entryGranted⟩
  case close => rintro rfl; exact pass (State.screenGate_close _)
  case exitGranted => rintro rfl rfl held; exact pass (State.screenGate_exit_granted held)
  case exitNoGrant => rintro rfl rfl free; exact refuse .noGrant rfl (State.screenGate_exit_noGrant free)
  case entryClosed =>
    rintro rfl rfl closed
    exact refuse .gateClosedBoarding rfl (State.screenGate_entry_refused (State.judgeEntryOpen_closed closed))
  case entryLatched =>
    rintro rfl rfl welcome latched
    exact refuse .stopLatched rfl (State.screenGate_entry_refused (State.judgeEntryOpen_latched welcome latched))
  case entryNoGrant =>
    rintro rfl rfl welcome unlatched notGranted
    exact refuse .noGrant rfl (State.screenGate_entry_refused (State.judgeEntryOpen_noGrant welcome unlatched notGranted))
  case entryGranted =>
    rintro g rfl rfl welcome unlatched held granted
    have verdict := State.judgeEntryOpen_granted (s := r) welcome unlatched held granted
    constructor
    · intro full
      exact refuse .loadLimit rfl (State.screenGate_entry_refused (verdict.trans (if_pos full)))
    · intro room
      exact pass (State.screenGate_entry_passed (verdict.trans (if_neg (Nat.not_le.2 room))))

end Sys2Proof.Machine
end

section
/-! PROOFS. The ceilings (R118, R119): the forward ceiling is the least of four terms, what makes a term 0, and when reverse is
permitted. -/

namespace Sys2Proof.Machine

variable {s : State}

/-! ## The terms of the forward ceiling -/

theorem Bank.ceiling_park (k : Bank) : k.ceiling .park = 0 := rfl

/-- Bank 0 gives every level a wind ceiling of 0 (R159). -/
theorem ceiling_floorBank (l : Level) : floorBank.ceiling l = 0 := by cases l <;> rfl

theorem State.windCeiling_eq_zero (h : s.wind.level = .park ∨ s.policy.active = .floor) :
    s.active.ceiling s.wind.level = 0 := by
  rcases h with parked | onFloor
  · rw [parked, Bank.ceiling_park]
  · rw [State.active, onFloor, State.bank, ceiling_floorBank]

theorem State.boardCeiling_eq :
    s.boardCeiling =
      if s.governor.latch = true ∨ s.board.doorStop = true then 0
      else if s.board.creep = true then s.board.creepValue else s.envelope.forward := by
  simp only [State.boardCeiling, Bool.or_eq_true]

theorem State.boardCeiling_eq_zero (h : s.governor.latch = true ∨ s.board.doorStop = true) : s.boardCeiling = 0 :=
  State.boardCeiling_eq.trans (if_pos h)

/-! ## The forward ceiling (R118) -/

section
variable (s)

theorem State.forwardNow_le_forward : s.forwardNow ≤ s.envelope.forward :=
  (Nat.min_le_left _ _).trans (Nat.min_le_left _ _)

theorem State.forwardNow_le_windCeiling : s.forwardNow ≤ s.active.ceiling s.wind.level :=
  (Nat.min_le_left _ _).trans (Nat.min_le_right _ _)

theorem State.forwardNow_le_boardCeiling : s.forwardNow ≤ s.boardCeiling :=
  (Nat.min_le_right _ _).trans (Nat.min_le_left _ _)

theorem State.forwardNow_le_positionCeiling : s.forwardNow ≤ s.positionCeiling :=
  (Nat.min_le_right _ _).trans (Nat.min_le_right _ _)

theorem State.forwardNow_attained :
    s.forwardNow = s.envelope.forward ∨ s.forwardNow = s.active.ceiling s.wind.level ∨
      s.forwardNow = s.boardCeiling ∨ s.forwardNow = s.positionCeiling := by
  unfold State.forwardNow
  omega

end

theorem State.forwardNow_eq_zero
    (h : s.wind.level = .park ∨ s.governor.latch = true ∨ s.board.doorStop = true ∨ s.policy.active = .floor) :
    s.forwardNow = 0 := by
  have byWind (h : s.wind.level = .park ∨ s.policy.active = .floor) : s.forwardNow = 0 :=
    Nat.le_zero.1 (s.forwardNow_le_windCeiling.trans_eq (State.windCeiling_eq_zero h))
  have byBoard (h : s.governor.latch = true ∨ s.board.doorStop = true) : s.forwardNow = 0 :=
    Nat.le_zero.1 (s.forwardNow_le_boardCeiling.trans_eq (State.boardCeiling_eq_zero h))
  rcases h with parked | latched | doorStop | onFloor
  · exact byWind (.inl parked)
  · exact byBoard (.inl latched)
  · exact byBoard (.inr doorStop)
  · exact byWind (.inr onFloor)

/-! ## The reverse ceiling (R119) -/

theorem State.noGrants_iff : s.noGrants = true ↔ s.board.grants.a = none ∧ s.board.grants.b = none := by
  rw [State.noGrants, Bool.and_eq_true, Option.isNone_iff_eq_none, Option.isNone_iff_eq_none]

theorem Level.code_le_two_iff (l : Level) : l.code ≤ 2 ↔ l = .opened ∨ l = .watch ∨ l = .reduced := by
  cases l <;> simp [Level.code]

theorem State.reversePermitted_iff :
    s.reversePermitted = true ↔
      s.board.grants.a = none ∧ s.board.grants.b = none ∧
        (s.wind.level = .opened ∨ s.wind.level = .watch ∨ s.wind.level = .reduced) ∧
        s.active.gov.reverse = true ∧ 0 < s.forwardNow := by
  simp only [State.reversePermitted, Bool.and_eq_true, decide_eq_true_iff, State.noGrants_iff, Level.code_le_two_iff,
    and_assoc]

theorem State.reverseNow_of_permitted (h : s.reversePermitted = true) :
    s.reverseNow = min s.envelope.reverse s.forwardNow := if_pos h

theorem State.reverseNow_of_not_permitted (h : ¬ s.reversePermitted = true) : s.reverseNow = 0 := if_neg h

theorem State.reverseNow_le_forwardNow (s : State) : s.reverseNow ≤ s.forwardNow := by
  by_cases h : s.reversePermitted = true
  · exact (State.reverseNow_of_permitted h).trans_le (Nat.min_le_right _ _)
  · exact (State.reverseNow_of_not_permitted h).trans_le (Nat.zero_le _)

/-- Settles O16: a governed part's ceilings are `forwardNow` and `reverseNow`, the first the least of its four terms, the second
decided by whether reverse is permitted. -/
theorem ceilingsFollowTheirRules : Obligations.CeilingsFollowTheirRules := by
  intro s ⟨_, _, hF, hV, _⟩
  dsimp only
  rw [hF, hV, ← State.boardCeiling_eq, ← State.reversePermitted_iff]
  exact ⟨s.forwardNow_le_forward, s.forwardNow_le_windCeiling, s.forwardNow_le_boardCeiling,
    s.forwardNow_le_positionCeiling, s.forwardNow_attained, State.forwardNow_eq_zero, State.reverseNow_of_permitted,
    State.reverseNow_of_not_permitted, s.reverseNow_le_forwardNow⟩

end Sys2Proof.Machine
end

section
/-! PROOFS. The target and the output of a speed order (R123, R124): an equation for each case, and the output between 0 and the
target, which lies between the ceilings. -/

namespace Sys2Proof.Machine

variable {t s : Int} {credit : Nat}

/-! ## The target (R123) -/

theorem speedTarget_of_nonneg {r : Int} (f v : Nat) (h : 0 ≤ r) : speedTarget r f v = min r f := if_pos h

theorem speedTarget_of_neg {r : Int} (f v : Nat) (h : r < 0) : speedTarget r f v = max r (-v) := if_neg h.not_ge

theorem speedTarget_within (r : Int) (f v : Nat) : -(v : Int) ≤ speedTarget r f v ∧ speedTarget r f v ≤ f := by
  rcases Int.lt_or_le r 0 with neg | nonneg
  · rw [speedTarget_of_neg f v neg]; omega
  · rw [speedTarget_of_nonneg f v nonneg]; omega

/-! ## The output (R124) -/

/-- R124's reversal: a drive in motion has a target of the opposite sign. -/
def Reversal (t s : Int) : Prop := s ≠ 0 ∧ (0 < t ∧ s < 0 ∨ t < 0 ∧ 0 < s)

/-- The step of R124's rise: what the target asks for, as far as the credit buys it. -/
def riseStep (t s : Int) (credit : Nat) : Nat := min (t.natAbs - s.natAbs) (credit / 1000)

theorem riseStep_le_gap : riseStep t s credit ≤ t.natAbs - s.natAbs := Nat.min_le_left _ _

theorem riseStep_mul_le_credit : riseStep t s credit * 1000 ≤ credit :=
  (Nat.mul_le_mul_right 1000 (Nat.min_le_right _ _)).trans (Nat.div_mul_le_self credit 1000)

theorem speedOutput_reversal (h : Reversal t s) : speedOutput t s credit = (0, credit) := if_pos h.2

/-- Outside a reversal the sizes decide; a speed of 0 makes no reversal, whatever the target. -/
theorem speedOutput_of_not_reversal (h : ¬ Reversal t s) :
    speedOutput t s credit =
      if t.natAbs ≤ s.natAbs then (t, credit)
      else (if t < 0 then s - riseStep t s credit else s + riseStep t s credit, credit - riseStep t s credit * 1000) := by
  have same : ¬ (0 < t ∧ s < 0 ∨ t < 0 ∧ 0 < s) := fun opposite => h ⟨by omega, opposite⟩
  exact if_neg same

theorem speedOutput_cut (h : ¬ Reversal t s) (slower : t.natAbs ≤ s.natAbs) : speedOutput t s credit = (t, credit) :=
  (speedOutput_of_not_reversal h).trans (if_pos slower)

theorem speedOutput_rise (h : ¬ Reversal t s) (faster : s.natAbs < t.natAbs) :
    speedOutput t s credit =
      (if 0 < t then s + riseStep t s credit else s - riseStep t s credit, credit - riseStep t s credit * 1000) := by
  rw [speedOutput_of_not_reversal h, if_neg faster.not_ge]
  rcases Int.lt_or_le 0 t with pos | nonpos
  · rw [if_pos pos, if_neg (by omega)]
  · rw [if_neg nonpos.not_gt, if_pos (by omega)]

/-- The output never passes the target: it lies between it and 0. -/
theorem speedOutput_between (t s : Int) (credit : Nat) :
    min 0 t ≤ (speedOutput t s credit).1 ∧ (speedOutput t s credit).1 ≤ max 0 t := by
  by_cases reverses : Reversal t s
  · rw [speedOutput_reversal reverses]; omega
  · rcases Nat.lt_or_ge s.natAbs t.natAbs with faster | slower
    · have gap : riseStep t s credit ≤ t.natAbs - s.natAbs := riseStep_le_gap
      rw [speedOutput_rise reverses faster]
      unfold Reversal at reverses
      split <;> omega
    · rw [speedOutput_cut reverses slower]; omega

/-- Settles O18: the target by the sign of the request, the output by the three cases of R124, and within the ceilings because it
lies between 0 and a target that does. -/
theorem speedTargetAndOutput : Obligations.SpeedTargetAndOutput := by
  intro r s f v credit t out left reversal
  refine ⟨speedTarget_of_nonneg f v, speedTarget_of_neg f v, fun reverses => ?reversal, fun same slower => ?cut,
    fun same faster => ?rise, ?within⟩
  case reversal => exact Prod.ext_iff.1 (speedOutput_reversal reverses)
  case cut => exact Prod.ext_iff.1 (speedOutput_cut same slower)
  case rise =>
    obtain ⟨hout, hleft⟩ := Prod.ext_iff.1 (speedOutput_rise (credit := credit) same faster)
    exact ⟨hout, (congrArg (· + riseStep t s credit * 1000) hleft).trans (Nat.sub_add_cancel riseStep_mul_le_credit)⟩
  case within =>
    have target : -(v : Int) ≤ t ∧ t ≤ f := speedTarget_within r f v
    have between : min 0 t ≤ out ∧ out ≤ max 0 t := speedOutput_between t s credit
    omega

end Sys2Proof.Machine
end

section
/-! PROOFS. The step as a whole, and the two invariants whose operations the laws have gone through: the bounds of the queues and
the agreement of the conditions, the ceilings and the rim-hold line with their inputs. -/

namespace Sys2Proof.Machine

/-! ## The step -/

/-- Settles O1: the queue's front command is what the step's match takes. -/
theorem stepRunsFrontCommand : Obligations.StepRunsFrontCommand := fun _ _ _ => rfl

/-! ## What a reset, the pins and the loss of power leave -/

theorem State.withStopIn_frame (s : State) (v : Bool) : s.OnlyChanges (s.withStopIn v) [.stopIn] :=
  fun x hx => by cases x <;> first | (exfalso; exact hx (by decide)) | rfl

theorem State.losePower_frame (s : State) : s.OnlyChanges s.losePower [.phase, .path, .governor] :=
  fun x hx => by cases x <;> first | (exfalso; exact hx (by decide)) | rfl

theorem State.leaveReset_of_held {s : State} (held : s.phase = .heldInReset) (high : Bool) :
    s.leaveReset high =
      { s with
        phase := .running, mode := if high then .screen else .monitor, clock := ClockUnit.reset
        governor := { s.governor with
          rimHold := rimHoldFor (if high then .screen else .monitor) s.governor.ceilingF s.governor.ceilingV } } :=
  if_pos held

theorem State.leaveReset_of_not_held {s : State} (other : s.phase ≠ .heldInReset) (high : Bool) : s.leaveReset high = s :=
  if_neg other

theorem State.leaveReset_frame (s : State) (high : Bool) :
    s.OnlyChanges (s.leaveReset high) [.phase, .mode, .clock, .governor] := by
  by_cases held : s.phase = .heldInReset
  · rw [State.leaveReset_of_held held]
    exact fun x hx => by cases x <;> first | (exfalso; exact hx (by decide)) | rfl
  · rw [State.leaveReset_of_not_held held]
    exact .refl _ _

/-! ## Every command completes -/

theorem State.takeOwn_frame (s : State) (p : Port) (f : Frame) : s.OnlyChanges (s.takeOwn p f) eventBlocks := by
  have posted (r : Reason) : s.OnlyChanges (s.postRefused r false f) eventBlocks :=
    (s.post_frame _ _ _ _ _ _ _).mono (by decide)
  unfold State.takeOwn
  split
  · split
    · unfold State.takeRequest
      split
      · exact (State.answer_frame _ (Move.handleRequest s _ _).onlyChanges).mono (by decide)
      · exact .refl _ _
    · exact posted _
  · exact posted _
  · exact posted _

theorem State.sortFrame_frame (s : State) (p : Port) (f : Frame) : s.OnlyChanges (s.sortFrame p f) eventBlocks := by
  have sorted : s.OnlyChanges (if f.dest = s.envelope.own then s.takeOwn p f else s.treat p f) eventBlocks := by
    split
    · exact s.takeOwn_frame p f
    · exact (Move.treat s p f).onlyChanges.mono (by decide)
  cases p with
  | supervisor => exact sorted
  | field => exact sorted.trans (Move.handOver _ _ f).onlyChanges

theorem State.setStaging_frame (s : State) (p : Port) (x : Staging) :
    s.OnlyChanges (s.withPath (s.path.setStaging p x)) [.path] :=
  (Move.staging (q := true) s p x (List.Subset.refl _)).onlyChanges

theorem State.arrive_frame (s : State) (p : Port) (bytes : List Byte) (badStop : Bool) :
    s.OnlyChanges (s.arrive p bytes badStop) eventBlocks := by
  refine ((s.setStaging_frame p Staging.empty).mono (by decide)).trans ?_
  unfold State.arrive State.judgeArrival
  split
  · exact (State.post_frame _ _ _ _ _ _ _ _).mono (by decide)
  · exact (State.post_frame _ _ _ _ _ _ _ _).mono (by decide)
  · exact State.sortFrame_frame _ p _

theorem State.endTransmission_frame (s : State) (p : Port) : s.OnlyChanges (s.endTransmission p) [.path] :=
  fun x hx => by cases p <;> cases x <;> first | (exfalso; exact hx (by decide)) | rfl

/-- An event body changes none of the commands that wait, the phase, the mode and the level of STOP_IN. -/
theorem EventBody.frame {f : State → State} (h : EventBody f) (s : State) : s.OnlyChanges (f s) eventBlocks := by
  have of {q : Bool} {bs : List Block} {t : State} (m : Move q bs s t) (sub : bs ⊆ eventBlocks) :
      s.OnlyChanges t eventBlocks := m.onlyChanges.mono sub
  cases h with
  | arrive p bytes badStop => exact s.arrive_frame p bytes badStop
  | choose p => exact (s.choose_frame p).mono (by decide)
  | complete p => exact ((s.endTransmission_frame p).trans (State.choose_frame _ p)).mono (by decide)
  | build => exact s.buildNotices_frame.mono (by decide)
  | stop => exact of (Move.setLatch s 0) (by decide)
  | release => exact .refl _ _
  | quarter => exact of (Move.quarter (q := true) s) (by decide)
  | second clockFirst => exact of (Move.secondTick s clockFirst) (by decide)
  | holdDown => exact of (Move.holdDownFall s) (by decide)
  | channel c st => exact of (Move.channelStep s c st) (by decide)
  | encoder => exact of (Move.encoderExpiry s) (by decide)
  | stale d => exact of (Move.staleExpiry (q := true) s d) (by decide)
  | flush => exact of (Move.flushExpiry (q := true) s) (by decide)
  | commit => exact of (Move.commitExpiry s) (by decide)
  | walk w => exact of (Move.walkCompletion s w) (by decide)
  | swap => exact of (Move.trySwap s) (by decide)
  | deferred => exact of (Move.tryDeferred s) (by decide)

/-- An answered request changes none of them either. -/
theorem State.request_frame (s : State) (r : RequestCode) (args : List Byte) (who : Requester) :
    s.OnlyChanges (s.answer who fun s => s.handleListed r args) eventBlocks :=
  (State.answer_frame who (Move.handleListed s r args).onlyChanges).mono (by decide)

theorem State.takeEvent_pending {s : State} {f : State → State} (h : s.OnlyChanges (f s) eventBlocks) :
    (s.takeEvent f).pending = s.pending :=
  State.takeEvent_frame h .pending (by decide)

/-- Settles O2: every command is one of the six shapes of `exec_cases`, and none of them touches the waiting commands. -/
theorem everyCommandCompletes : Obligations.EveryCommandCompletes := by
  intro c s
  rcases exec_cases c s with ⟨f, body, e⟩ | ⟨r, args, who, -, -, e⟩ | ⟨f, v, body, e⟩ | ⟨cause, e⟩ | ⟨high, e⟩ | e
  case inl => exact ⟨_, e, State.takeEvent_pending (body.frame s)⟩
  case inr.inl => exact ⟨_, e, State.takeEvent_pending (s.request_frame r args who)⟩
  case inr.inr.inl =>
    exact ⟨_, e, (State.takeEvent_pending (body.frame _)).trans (s.withStopIn_frame v .pending (by decide))⟩
  case inr.inr.inr.inl =>
    refine ⟨_, e, ?_⟩
    cases cause with
    | powerOn => rfl
    | resetPin => unfold State.coldReset; dsimp only; split <;> rfl
  case inr.inr.inr.inr.inl => exact ⟨_, e, s.leaveReset_frame high .pending (by decide)⟩
  case inr.inr.inr.inr.inr => exact ⟨_, e, s.losePower_frame .pending (by decide)⟩

/-! ## The bounds of the queues -/

theorem FramePath.reset_bounded : FramePath.reset.Bounded := ⟨by decide, by decide, by decide, by decide, by decide⟩

theorem NoticeUnit.reset_sound : NoticeUnit.reset.Sound := .of_empty rfl rfl (by decide)

theorem FramePath.silent_bounded {p : FramePath} (h : p.Bounded) (x y : Option Frame) :
    ({ p with supTx := x, fldTx := y } : FramePath).Bounded :=
  ⟨h.supForward, h.fldForward, h.part, h.origin, h.runCount⟩

theorem State.queuesBounded_of_frame {s t : State} {bs : List Block} (h : s.OnlyChanges t bs) (hp : Block.path ∉ bs)
    (hn : Block.notices ∉ bs) (g : s.QueuesBounded) : t.QueuesBounded := by
  have path : t.path = s.path := h .path hp
  have notices : t.notices = s.notices := h .notices hn
  unfold State.QueuesBounded
  rw [path, notices]
  exact g

theorem State.advance_queuesBounded {s : State} (ms : Nat) (g : s.QueuesBounded) : (s.advance ms).QueuesBounded :=
  have passes : Move true [.clock, .rim, .governor, .policy, .notices] s (s.advance ms) := .advance s ms (by decide)
  ⟨g.1, passes.notices_sound g.2.1, g.2.2⟩

/-- Settles O5: every body keeps the bounds that do not speak of a restart, the close brings back the one that does, and a reset
starts from empty queues. -/
theorem queuesStayBounded : Obligations.QueuesStayBounded := by
  intro s t bounded run
  have command (c : Instr) (s t : State) : exec c s = .next t → s.QueuesBounded → t.QueuesBounded :=
    exec_keeps (Q := fun u => u.path.Bounded ∧ u.notices.Sound) (fun _ ⟨path, notices⟩ => State.close_queues path notices)
      (fun _ body _ ⟨path, notices, _⟩ => body.queues path notices)
      (fun r args who _ ⟨path, notices, _⟩ => State.request_queues r args who path notices)
      (fun s v => State.queuesBounded_of_frame (s.withStopIn_frame v) (by decide) (by decide))
      (fun _ _ => ⟨FramePath.reset_bounded, NoticeUnit.reset_sound, rfl, rfl⟩)
      (fun s high => State.queuesBounded_of_frame (s.leaveReset_frame high) (by decide) (by decide))
      (fun _ ⟨path, notices, between⟩ => ⟨FramePath.silent_bounded path none none, notices, between⟩)
  exact step_keeps (fun _ _ => id) command (fun _ => State.advance_queuesBounded 1) run bounded

/-! ## The ceilings and the rim-hold line -/

theorem State.forwardNow_of_latched {s : State} (latched : s.governor.latch = true) : s.forwardNow = 0 :=
  State.forwardNow_eq_zero (.inr (.inl latched))

theorem State.reverseNow_of_latched {s : State} (latched : s.governor.latch = true) : s.reverseNow = 0 :=
  Nat.eq_zero_of_le_zero (State.forwardNow_of_latched latched ▸ s.reverseNow_le_forwardNow)

theorem State.enterReset_governed (s : State) : s.enterReset.Governed :=
  ⟨⟨nofun, .inl rfl⟩, ⟨rfl, rfl, rfl⟩, (State.forwardNow_of_latched rfl).symm, (State.reverseNow_of_latched rfl).symm,
    fun running => by cases running⟩

theorem State.leaveReset_governed {s : State} (high : Bool) (g : s.Governed) : (s.leaveReset high).Governed := by
  by_cases held : s.phase = .heldInReset
  · rw [State.leaveReset_of_held held]
    obtain ⟨apart, conditions, forward, reverse, -⟩ := g
    refine ⟨apart, conditions, forward, reverse, fun _ => ?_⟩
    exact congrArg₂ (rimHoldFor _) forward reverse
  · rw [State.leaveReset_of_not_held held]
    exact g

theorem State.losePower_governed {s : State} (g : s.Governed) : s.losePower.Governed :=
  ⟨g.1, g.2.1, g.2.2.1, g.2.2.2.1, fun running => by cases running⟩

/-- Settles O6: every body and the close keep the agreement, and a reset starts with the latch SET, so with both ceilings 0. -/
theorem ceilingsFollowEveryStep : Obligations.CeilingsFollowEveryStep := by
  intro s t governed run
  have command (c : Instr) (s t : State) : exec c s = .next t → s.Governed → t.Governed :=
    exec_keeps (Q := State.Governed) (fun _ => State.close_governed) (fun _ body _ => body.governed)
      (fun r args who s g => State.answer_governed who (State.handleListed_governed r args g) g)
      (fun s v g => (State.SameInputs.of_frame ((s.withStopIn_frame v).mono (by decide))).governed g)
      (fun s _ => s.enterReset_governed) (fun _ high => State.leaveReset_governed high) (fun _ => State.losePower_governed)
  exact step_keeps (fun s q g => (State.SameInputs.of_frame (t := { s with pending := q })
    (fun x hx => by cases x <;> first | (exfalso; exact hx (by decide)) | rfl)).governed g) command
    (fun _ => State.advance_governed 1) run governed

end Sys2Proof.Machine
end

section
/-! PROOFS. What a body can do to the blocks that the invariants speak of, said once: a chain of acts, each of which is one of the
manual's operations on the cabins, the grants, the sweep, the wind, the banks or the envelope, or leaves all of these alone. Two
things that a request may do stand apart: the writing of the staging bank, and the clearing of the stop latch. -/

namespace Sys2Proof.Machine

/-! ## The grant table -/

@[simp] theorem PerBerth.get_set_self {α : Type} (p : PerBerth α) (berth : Berth) (x : α) :
    (p.set berth x).get berth = x := by cases berth <;> rfl

theorem PerBerth.get_set_of_ne {α : Type} (p : PerBerth α) {berth other : Berth} (h : other ≠ berth) (x : α) :
    (p.set berth x).get other = p.get other := by
  cases berth <;> cases other <;> first | rfl | exact absurd rfl h

theorem State.grantOf_eq_some {s : State} {c : Nat} {berth : Berth} {g : Grant} (h : s.grantOf c = some (berth, g)) :
    s.board.grants.get berth = some g ∧ g.cabin = c := by
  unfold State.grantOf at h
  split at h
  · next x held =>
    split at h
    · next mine => cases h; exact ⟨held, mine⟩
    · split at h
      · next y heldB =>
        split at h
        · next mine => cases h; exact ⟨heldB, mine⟩
        · cases h
      · cases h
  · split at h
    · next y heldB =>
      split at h
      · next mine => cases h; exact ⟨heldB, mine⟩
      · cases h
    · cases h

theorem State.grantOf_eq_none {s : State} {c : Nat} :
    s.grantOf c = none ↔ ∀ berth g, s.board.grants.get berth = some g → g.cabin ≠ c := by
  constructor
  · intro h berth g held mine
    unfold State.grantOf at h
    cases berth <;> simp only [PerBerth.get] at held
    · simp [held, mine] at h
    · cases ha : s.board.grants.a with
      | none => simp [ha, held, mine] at h
      | some x =>
        simp only [ha, held, mine, if_true] at h
        split at h <;> cases h
  · intro h
    cases found : s.grantOf c with
    | none => rfl
    | some x =>
      obtain ⟨held, mine⟩ := State.grantOf_eq_some (berth := x.1) (g := x.2) found
      exact absurd mine (h _ _ held)

theorem State.holdsGrant_eq_false {s : State} {c : Nat} :
    s.holdsGrant c = false ↔ ∀ berth g, s.board.grants.get berth = some g → g.cabin ≠ c := by
  rw [← State.grantOf_eq_none, State.holdsGrant, Option.isSome_eq_false_iff, Option.isNone_iff_eq_none]

/-- A release that is granted names a cabin of the wheel that holds no grant (R74, checks 4 and 7). -/
theorem State.judgeRelease_granted {s : State} {c : Nat} {k : GrantKind} {berth : Berth}
    (h : s.judgeRelease c k = .granted berth) : s.present c = true ∧ s.holdsGrant c = false := by
  unfold State.judgeRelease at h
  split at h
  · cases h
  · split at h
    · cases h
    · split at h
      · cases h
      · next known =>
        split at h
        · cases h
        · unfold State.judgeReleaseAt at h
          split at h
          · cases h
          · split at h
            · cases h
            · next free => exact ⟨by simpa using (not_or.1 known).1, by simpa using (not_or.1 free).2⟩

/-! ## Acts -/

/-- The blocks on which the level, the sweep, the grants, the wind rings, the banks and the envelope do not depend. -/
def sideBlocks : List Block := [.pending, .phase, .mode, .stopIn, .clock, .path, .rim, .governor, .notices]

/-- The Policy Store keeps its banks, the number of the bank in force and the staging bank, and with them that the two are
apart. -/
structure PolicyStore.SameBanks (p q : PolicyStore) : Prop where
  bank1   : q.bank1 = p.bank1
  bank2   : q.bank2 = p.bank2
  active  : q.active = p.active
  staging : q.staging = p.staging
  commit  : q.commitBank = p.commitBank ∨ q.commitBank = none ∨ q.commitBank = some p.staging

theorem PolicyStore.SameBanks.refl (p : PolicyStore) : p.SameBanks p := ⟨rfl, rfl, rfl, rfl, .inl rfl⟩

/-- A chain of the operations from one state to another, at a part at work. A stop latch that is SET stays so. -/
inductive Act : State → State → Prop
  | keep {s t : State} (h : s.OnlyChanges t [.clock, .path, .rim, .notices, .governor, .policy])
      (latch : s.governor.latch = true → t.governor.latch = true) (banks : s.policy.SameBanks t.policy) : Act s t
  | cabin (s : State) (c : Nat) (x : Cabin) (mark : x.mark = (s.cabin c).mark) : Act s (s.withCabin c x)
  | board (s : State) (x : BoardingScreen) (grants : x.grants = s.board.grants) : Act s (s.withBoard x)
  | regrant (s : State) (berth : Berth) (g g' : Grant) (held : s.board.grants.get berth = some g)
      (cabin : g'.cabin = g.cabin) : Act s (s.withGrant berth (some g'))
  | release (s : State) (berth : Berth) (g : Grant) (free : s.holdsGrant g.cabin = false)
      (present : s.present g.cabin = true) : Act s (s.withGrant berth (some g))
  | cancel (s : State) : Act s (s.withBoard s.board.restarted)
  | endGrant (s : State) (berth : Berth) (g : Grant) (held : s.board.grants.get berth = some g) : Act s (s.endGrant berth g)
  | served (s : State) (x : Vector Bool 64) : Act s (s.withSweep { s.sweep with served := x })
  | exit (s : State) (c : Nat) (berth : Berth) : Act s (s.sweepExit c berth)
  | occupancy (s : State) (c : Nat) (present : s.present c = true) : Act s (s.sweepOccupancy c)
  | service (s : State) (c : Nat) : Act s (s.sweepService c)
  | addCause (s : State) (c : Cause) (src : SweepSource) : Act s (s.sweepAdd c src)
  | removeCause (s : State) (c : Cause) (src : SweepSource) : Act s (s.sweepRemove c src)
  | sample (s : State) (c : ChannelIx) (speed direction : Nat) : Act s (s.takeSample c speed direction)
  | tick (s : State) : Act s s.windTick
  | fall (s : State) : Act s s.holdDownFall
  | channel (s : State) (c : ChannelIx) (st : ChannelState) : Act s (s.channelStep c st)
  | floor (s : State) (l : Level) : Act s (s.withWind { s.wind with floor := l }).applyFloors
  | rewind (s : State) : Act s s.windRestart
  | newBank {s t : State} (p : PolicyStore) (bank1 : p.bank1 = s.policy.bank1) (bank2 : p.bank2 = s.policy.bank2)
      (apart : s.BanksApart → (s.withPolicy p).BanksApart) (h : (s.withPolicy p).OnlyChanges t [.notices]) : Act s t.takeBank
  | envelope (s : State) (field v lo hi : Nat) (unlocked : s.envelope.locked = false)
      (range : envelopeRange field = some (lo, hi)) (within : lo ≤ v ∧ v ≤ hi) : Act s (s.takeEnvelope (s.envelope.write field v))
  | lock (s : State) (unlocked : s.envelope.locked = false) : Act s (s.withEnvelope { s.envelope with locked := true })
  | trans {s t u : State} (h : Act s t) (k : Act t u) : Act s u

namespace Act

variable {s t : State}

theorem frame (h : s.OnlyChanges t [.clock, .path, .rim, .notices, .governor])
    (latch : s.governor.latch = true → t.governor.latch = true) : Act s t := by
  have policy : t.policy = s.policy := h .policy (by decide)
  exact .keep (h.mono (by decide)) latch (policy ▸ .refl _)

theorem side (h : s.OnlyChanges t [.clock, .path, .rim, .notices]) : Act s t := by
  have governor : t.governor = s.governor := h .governor (by decide)
  exact .frame (h.mono (by decide)) (governor ▸ id)

theorem refl (s : State) : Act s s := .side (.refl _ _)

/-- A quiet move that keeps to the blocks no invariant but the latch's depends on is an act. -/
theorem quiet {bs : List Block} (m : Move true bs s t) (sub : bs ⊆ [.clock, .path, .rim, .notices, .governor]) : Act s t :=
  .frame (m.onlyChanges.mono sub) fun latched => m.inputs.latch.trans latched

theorem ite {u : State} {p : Prop} [Decidable p] (h : Act s t) (k : Act s u) : Act s (if p then t else u) := by
  split
  · exact h
  · exact k

theorem foldl {α : Type} {f : State → α → State} (h : ∀ s a, Act s (f s a)) (l : List α) (s : State) : Act s (l.foldl f s) := by
  induction l generalizing s with
  | nil => exact .refl s
  | cons a l ih => exact .trans (h s a) (ih _)

/-! ## The governor, the path and the notices -/

theorem post (s : State) (kind : NoticeKind) (m : Bool) (subject d0 d1 d2 d3 : Byte) :
    Act s (s.post kind m subject d0 d1 d2 d3) :=
  .side ((s.post_frame _ _ _ _ _ _ _).mono (by decide))

theorem offer (s : State) (p : Port) (f : Frame) : Act s (s.offerForward p f) :=
  .side ((s.offerForward_frame p f).mono (by decide))

theorem originateOrder (s : State) (key : OriginKey) (role : Role) (cls : Byte) (payload : List Byte) :
    Act s (s.originateOrder key role cls payload) :=
  .quiet (Move.originateOrder (bs := [.path]) s key role cls payload (by decide)) (by decide)

theorem recomputeCeilings (s : State) : Act s s.recomputeCeilings :=
  .frame ((Move.recomputeCeilings s).onlyChanges.mono (by decide)) id

theorem recomputeBoarding (s : State) : Act s s.recomputeBoarding := by
  have conditions : Act s (s.withBoard { s.board with
      doorStop := s.doorStopNow, creep := s.creepNow, creepValue := s.creepValueNow }) := .board s _ rfl
  exact conditions.trans (.recomputeCeilings _)

theorem advance (s : State) (ms : Nat) : Act s (s.advance ms) :=
  .keep ((s.advance_frame ms).mono (by decide)) id ⟨rfl, rfl, rfl, rfl, .inl rfl⟩

theorem setLatch (s : State) (subject : Byte) : Act s (s.setLatch subject) := by
  refine .frame ((Move.setLatch s subject).onlyChanges.mono (by decide)) fun latched => ?_
  rw [State.setLatch, if_pos latched]
  exact latched

theorem withPolicy (s : State) (p : PolicyStore) (h : s.policy.SameBanks p) : Act s (s.withPolicy p) :=
  .keep (fun x hx => by cases x <;> first | (exfalso; exact hx (by decide)) | rfl) id h

theorem withRim (s : State) (x : RimTracker) : Act s (s.withRim x) :=
  .side fun x hx => by cases x <;> first | (exfalso; exact hx (by decide)) | rfl

theorem withClock (s : State) (x : ClockUnit) : Act s (s.withClock x) :=
  .side fun x hx => by cases x <;> first | (exfalso; exact hx (by decide)) | rfl

theorem enqueuePart (s : State) (dest cls : Byte) (payload : List Byte) : Act s (s.enqueuePart dest cls payload) :=
  .side ((s.enqueuePart_frame dest cls payload).mono (by decide))

/-! ## Cabins and grants -/

theorem postCabin (s : State) (c : Nat) (e : CabinCause) : Act s (s.postCabin c e) := post ..

theorem setServed (s : State) (c : Nat) (v : Bool) : Act s (s.setServed c v) := .ite (.refl s) (.served s _)

theorem boardDoor (s : State) (c : Nat) (d : DoorState) : Act s (s.boardDoor c d) := by
  unfold State.boardDoor
  split
  · next berth g found =>
    exact .ite (.endGrant s berth g (State.grantOf_eq_some found).1) (.recomputeBoarding s)
  · exact .recomputeBoarding s

theorem takeDoor (s : State) (c : Nat) (d : DoorState) : Act s (s.takeDoor c d) := by
  have set : Act s (s.withCabin c { s.cabin c with door := d }) := .cabin s c _ (by rfl)
  exact .trans (.ite set (set.trans (.postCabin _ _ _))) (.boardDoor _ _ _)

theorem regranted {u : State} {berth : Berth} {g g' : Grant} (h : Act s u) (board : u.board = s.board)
    (held : s.board.grants.get berth = some g) (cabin : g'.cabin = g.cabin) :
    Act s (u.withGrant berth (some g')).recomputeBoarding :=
  h.trans (.trans (.regrant u berth g g' (by rw [board]; exact held) cabin) (.recomputeBoarding _))

theorem boardWithdraw (s : State) (c : Nat) (berth : Berth) : Act s (s.boardWithdraw c berth) := by
  unfold State.boardWithdraw
  split
  · exact .refl s
  · next g held =>
    have lock : Move true [.path] s (s.originateOrder (.doorLock berth) .hub codeDoorOrder [byte c, 1, 0]) :=
      .originateOrder _ _ _ _ _ (by decide)
    have gate := Move.ite (p := (s.board.gates.get berth).entry = .closed) lock
      (lock.trans (Move.closeEntry _ berth (by decide)))
    exact .ite (regranted (.quiet gate (by decide)) (gate.onlyChanges .board (by decide)) held rfl) (.refl s)

theorem boardExit (s : State) (c : Nat) (berth : Berth) : Act s (s.boardExit c berth) := by
  unfold State.boardExit
  split
  · exact .refl s
  · next g held =>
    exact .ite (.ite (.endGrant s berth g held) (regranted (.refl s) rfl held rfl)) (.refl s)

theorem screenDoor (s : State) (c : Nat) (release : Bool) (k : GrantKind) (f : Frame) :
    Act s (s.screenDoor c release k f) := by
  unfold State.screenDoor
  split
  · split
    · next berth granted =>
      obtain ⟨present, free⟩ := State.judgeRelease_granted granted
      exact .trans (.trans (.release s berth _ free present) (.recomputeBoarding _)) (.offer _ _ _)
    · exact .quiet (Move.refuseOrder s _ f) (by decide)
  · exact .offer _ _ _

/-! ## The rim -/

theorem takeZoneEvent (s : State) (e : ZoneEvent) : Act s (s.takeZoneEvent e) := by
  cases e with
  | exit c berth side => exact .trans (.trans (.cabin s c _ (by rfl)) (.boardExit _ c berth)) (.exit _ c berth)
  | entry c berth => exact .setServed s c false
  | withdraw c berth => exact .boardWithdraw s c berth

theorem takeGoodRim (s : State) (p : Nat) (v : Int) : Act s (s.takeGoodRim p v) := by
  unfold State.takeGoodRim
  exact .trans (.trans (.trans (.withRim s _) (.recomputeCeilings _)) (.foldl takeZoneEvent _ _)) (.withRim _ _)

theorem losePosition (s : State) : Act s s.losePosition := .trans (.withRim s _) (.recomputeCeilings _)

theorem encoderExpiry (s : State) : Act s s.encoderExpiry := by
  unfold State.encoderExpiry
  split
  · exact .refl s
  · exact .trans (.advance s _) (.losePosition _)

/-! ## Restarts and commits -/

theorem warmRestart (s : State) : Act s s.warmRestart := by
  have path : Act s ((s.withPath s.path.restarted).withNotices NoticeUnit.restarted) :=
    .quiet (Move.restart (bs := [.path, .notices]) s (by decide)) (by decide)
  have picture := (path.trans (.withRim _ RimTracker.reset)).trans (.cancel _)
  have wind := (picture.trans (.rewind _)).trans (.served _ (Vector.replicate 64 false))
  exact (wind.trans (.recomputeBoarding _)).trans (.quiet (Move.endRestart (bs := [.notices]) _ (by decide)) (by decide))

theorem carryOutDeferred (s : State) : Act s s.carryOutDeferred :=
  .ite (.trans (.withPolicy s _ (by exact ⟨rfl, rfl, rfl, rfl, .inl rfl⟩)) (.warmRestart _)) (.refl s)

theorem postCommit (s : State) (e : CommitEnd) : Act s (s.postCommit e) :=
  .side ((Move.postCommit s e).onlyChanges.mono (by decide))

theorem endCommit (s : State) : Act s (s.withPolicy s.policy.endCommit) :=
  .withPolicy s _ ⟨rfl, rfl, rfl, rfl, .inr (.inl rfl)⟩

theorem finishCommit (s : State) (e : CommitEnd) : Act s (s.finishCommit e) :=
  .trans (.trans (.endCommit s) (.carryOutDeferred _)) (.postCommit _ e)

theorem swapBanks (s : State) : Act s s.swapBanks := by
  unfold State.swapBanks
  split
  · exact .refl s
  · next k _ =>
    have apart (_ : s.BanksApart) : (s.withPolicy (s.policy.swapTo k)).BanksApart := ⟨k.other_ne, .inl rfl⟩
    exact .ite (.trans (.trans (.newBank (s.policy.swapTo k) rfl rfl apart (.refl _ _)) (.carryOutDeferred _)) (.postCommit _ _))
      (.newBank (s.policy.swapTo k) rfl rfl apart (Move.postCommit _ _).onlyChanges)

theorem trySwap (s : State) : Act s s.trySwap := .ite (.swapBanks s) (.refl s)

theorem afterGrants (s before : State) : Act s (s.afterGrants before) := .ite (.trySwap s) (.refl s)

theorem walkCompletion (s : State) (w : Nat) : Act s (s.walkCompletion w) := by
  unfold State.walkCompletion
  split
  · split
    · exact .finishCommit s _
    · exact .trans (.withPolicy s _ (by exact ⟨rfl, rfl, rfl, rfl, .inl rfl⟩)) (.trySwap _)
  · exact .refl s

theorem commitExpiry (s : State) : Act s s.commitExpiry := by
  unfold State.commitExpiry
  split
  · exact .refl s
  · exact .ite (.trans (.advance s _) (.finishCommit _ _)) (.refl s)

theorem toFloor (s : State) : Act s s.toFloor := by
  have apart (h : s.BanksApart) : (s.withPolicy { s.policy with active := .floor }).BanksApart :=
    ⟨by simp only [State.withPolicy_policy]; cases s.policy.staging <;> decide, h.2⟩
  exact .ite (.refl s) (.newBank { s.policy with active := .floor } rfl rfl apart (.refl _ _))

theorem revert (s : State) : Act s s.revert := by
  refine .ite ?_ (.toFloor s)
  exact .ite (.trans (.trans (.trans (.endCommit s) (.toFloor _)) (.carryOutDeferred _)) (.postCommit _ _))
    (.trans (.trans (.endCommit s) (.postCommit _ _)) (.toFloor _))

/-! ## The clock and the timers -/

theorem clockTick (s : State) : Act s s.clockTick :=
  .ite (.trans (.trans (.withClock s _) (.post _ _ _ _ _ _ _ _)) (.addCause _ _ _)) (.withClock s _)

theorem secondTick (s : State) (clockFirst : Bool) : Act s (s.secondTick clockFirst) :=
  .ite (.trans (.clockTick s) (.tick _)) (.trans (.tick s) (.clockTick _))

theorem staleExpiry (s : State) (d : DriveIx) : Act s (s.staleExpiry d) := by
  unfold State.staleExpiry
  split
  · exact .refl s
  · have stopped (u : State) (x : Drive) : Act u (u.withDrive d x) :=
      .quiet (Move.withDrive (bs := [.governor]) u d x (by decide)) (by decide)
    exact .ite (.trans (.trans (.trans (.advance s _) (stopped _ _)) (stopped _ _)) (.post _ _ _ _ _ _ _ _))
      (.trans (.advance s _) (stopped _ _))

theorem flushExpiry (s : State) : Act s s.flushExpiry := by
  unfold State.flushExpiry
  split
  · exact .refl s
  · exact .trans (.advance s _) (.quiet (Move.drain (bs := [.notices]) _ (by decide)) (by decide))

theorem quarter (s : State) : Act s s.quarter :=
  .trans (.trans (.advance s _) (.withClock _ _)) (.quiet (Move.substituteAll _) (by decide))

/-! ## Requests -/

theorem setService (s : State) (c : Nat) (v : Bool) : Act s (s.setService c v) :=
  .ite (.refl s) (.trans (.trans (.cabin s c _ (by rfl)) (.postCabin _ _ _)) (.service _ c))

theorem setOccupancy (s : State) (c n : Nat) (present : s.present c = true) : Act s (s.setOccupancy c n) := by
  have set (x : Cabin) (e : Prop) [Decidable e] :
      (if e then s.withCabin c x else (s.withCabin c x).postCabin c .request).envelope = s.envelope := by
    split
    · simp
    · exact (State.post_frame _ _ _ _ _ _ _ _ .envelope (by decide)).trans (by simp)
  refine .trans (.ite (.cabin s c _ (by rfl)) (.trans (.cabin s c _ (by rfl)) (.postCabin _ _ _))) (.occupancy _ c ?_)
  rw [State.present, set]
  exact present

theorem doEnvelopeWrite (s : State) (field : Byte) (value : BitVec 16) : Act s (s.doEnvelopeWrite field value).1 := by
  unfold State.doEnvelopeWrite
  split
  · exact .refl s
  · next unlocked =>
    split
    · exact .refl s
    · split
      · exact .refl s
      · next lo hi range =>
        split
        · next within => exact .envelope s _ _ lo hi (by simpa using unlocked) range within
        · exact .refl s

theorem doEnvelopeLock (s : State) : Act s s.doEnvelopeLock.1 := by
  unfold State.doEnvelopeLock
  split
  · exact .refl s
  · next unlocked =>
    split
    · exact .refl s
    · split
      · exact .lock s (by simpa using unlocked)
      · exact .refl s

theorem doCommitStaging (s : State) (bank : Byte) : Act s (s.doCommitStaging bank).1 := by
  unfold State.doCommitStaging
  split
  · exact .refl s
  · split
    · exact .refl s
    · split
      · exact .refl s
      · next k _ staged => exact .withPolicy s _ (by exact ⟨rfl, rfl, rfl, rfl, .inr (.inr (congrArg some (not_not.1 staged)))⟩)

/-! ## Requests of the link -/

theorem doSetService (s : State) (c v : Byte) : Act s (s.doSetService c v).1 := by
  unfold State.doSetService
  split
  · exact .setService s _ _
  · exact .refl s

theorem doSetOccupancy (s : State) (c n : Byte) : Act s (s.doSetOccupancy c n).1 := by
  unfold State.doSetOccupancy
  split
  · next allowed => exact .setOccupancy s _ _ allowed.1
  · exact .refl s

theorem doSetOperatorFloor (s : State) (level : Byte) : Act s (s.doSetOperatorFloor level).1 := by
  unfold State.doSetOperatorFloor
  split
  · exact .refl s
  · exact .floor s _

theorem doAbortCommit (s : State) : Act s s.doAbortCommit.1 := by
  unfold State.doAbortCommit
  split
  · dsimp only
    exact .finishCommit s _
  · exact .refl s

theorem doWarmRestart (s : State) : Act s s.doWarmRestart.1 := by
  unfold State.doWarmRestart
  split
  · exact .withPolicy s _ (by exact ⟨rfl, rfl, rfl, rfl, .inl rfl⟩)
  · exact .warmRestart s

end Act

/-! ## Arguments -/

section
variable {P : State → Prop} {s : State}

theorem State.args0_keeps {k : Handled} (args : List Byte) (hs : P s) (hk : P k.1) : P (s.args0 k args).1 := by
  unfold State.args0; split <;> assumption

theorem State.args1_keeps {k : Byte → Handled} (args : List Byte) (hs : P s) (hk : ∀ x, P (k x).1) :
    P (s.args1 k args).1 := by
  unfold State.args1; split
  · exact hk _
  · exact hs

theorem State.args2_keeps {k : Byte → Byte → Handled} (args : List Byte) (hs : P s) (hk : ∀ x y, P (k x y).1) :
    P (s.args2 k args).1 := by
  unfold State.args2; split
  · exact hk _ _
  · exact hs

theorem State.args3_keeps {k : Byte → Byte → Byte → Handled} (args : List Byte) (hs : P s) (hk : ∀ x y z, P (k x y z).1) :
    P (s.args3 k args).1 := by
  unfold State.args3; split
  · exact hk _ _ _
  · exact hs

theorem State.args4_keeps {k : Byte → Byte → Byte → Byte → Handled} (args : List Byte) (hs : P s)
    (hk : ∀ x y z w, P (k x y z w).1) : P (s.args4 k args).1 := by
  unfold State.args4; split
  · exact hk _ _ _ _
  · exact hs

end

/-! ## Work: a body's acts, or one of the two things that stand apart -/

/-- What a body does to a part at work. Besides acts, a request may write the staging bank, and where `clears` holds it may clear the
stop latch; it then does nothing but queue its reply. -/
inductive Work (clears : Prop) (s t : State) : Prop
  | acts (h : Act s t)
  | write (u : State) (k : Bank) (before : s.OnlyChanges u [.path])
      (after : (u.withPolicy (u.policy.setBank u.policy.staging k)).OnlyChanges t [.path])
  | clear (u : State) (asked : clears) (inactive : u.stopIn = false) (before : s.OnlyChanges u [.path])
      (after : u.clearLatch.OnlyChanges t [.path])

namespace Work

variable {s t u : State} {clears : Prop}

theorem imp {wide : Prop} (h : clears → wide) (k : Work clears s t) : Work wide s t := by
  cases k with
  | acts k => exact .acts k
  | write u k before after => exact .write u k before after
  | clear u asked inactive before after => exact .clear u (h asked) inactive before after

theorem of_path (h : s.OnlyChanges t [.path]) (k : Work clears t u) : Work clears s u := by
  cases k with
  | acts k => exact .acts (.trans (.side (h.mono (by decide))) k)
  | write u k before after => exact .write u k (h.trans before) after
  | clear u asked inactive before after => exact .clear u asked inactive (h.trans before) after

theorem then_path (k : Work clears s t) (h : t.OnlyChanges u [.path]) : Work clears s u := by
  cases k with
  | acts k => exact .acts (.trans k (.side (h.mono (by decide))))
  | write u k before after => exact .write u k before (after.trans h)
  | clear u asked inactive before after => exact .clear u asked inactive before (after.trans h)

theorem doWriteStaging (s : State) (bank table first count : Byte) (entries : List Byte) :
    Work clears s (s.doWriteStaging bank table first count entries).1 := by
  unfold State.doWriteStaging
  split
  · exact .acts (.refl s)
  · split
    · exact .acts (.refl s)
    · split
      · exact .acts (.refl s)
      · next staged =>
        split
        · exact .acts (.refl s)
        · next k _ =>
          rw [not_not.1 staged]
          exact .write s k (.refl _ _) (.refl _ _)

theorem doClearStop (s : State) : Work True s s.doClearStop.1 := by
  unfold State.doClearStop
  split
  · exact .acts (.refl s)
  · split
    · exact .acts (.refl s)
    · next inactive => exact .clear s trivial (by simpa using inactive) (.refl _ _) (.refl _ _)

/-- A listed request: only Clear Stop, without arguments, may clear the latch. -/
theorem handleListed (s : State) (r : RequestCode) (args : List Byte) :
    Work (r = .clearStop ∧ args = []) s (s.handleListed r args).1 := by
  have none : Act s s := .refl s
  cases r with
  | readDirectory => exact .acts (State.args1_keeps args none fun x => .quiet (Move.doReadDirectory s x) (by decide))
  | readTable =>
      exact .acts (State.args4_keeps args none fun x y z w => .quiet (Move.doReadTable s x y z w) (by decide))
  | writeStaging =>
      unfold State.handleListed State.argsWrite
      dsimp only
      split
      · exact doWriteStaging s _ _ _ _ _
      · exact .acts none
  | commitStaging => exact .acts (State.args1_keeps args none (Act.doCommitStaging s))
  | abortCommit => exact .acts (State.args0_keeps args none (Act.doAbortCommit s))
  | revertToFloor => exact .acts (State.args0_keeps args none (Act.revert s))
  | readStatus => exact .acts (State.args0_keeps args none none)
  | setService => exact .acts (State.args2_keeps args none (Act.doSetService s))
  | setOccupancy => exact .acts (State.args2_keeps args none (Act.doSetOccupancy s))
  | setOperatorFloor => exact .acts (State.args1_keeps args none (Act.doSetOperatorFloor s))
  | beginSweep => exact .acts (State.args0_keeps args none (.addCause s _ _))
  | endSweep => exact .acts (State.args0_keeps args none (.removeCause s _ _))
  | openBoarding => exact .acts (State.args0_keeps args none (.removeCause s _ _))
  | latchStop => exact .acts (State.args0_keeps args none (Act.setLatch s 1))
  | clearStop =>
      cases args with
      | nil => exact (doClearStop s).imp fun _ => ⟨rfl, rfl⟩
      | cons x xs => exact .acts none
  | setClock => exact .acts (State.args3_keeps args none fun x y z => .quiet (Move.doSetClock s x y z) (by decide))
  | setClosingAlarm =>
      exact .acts (State.args3_keeps args none fun x y z => .quiet (Move.doSetClosingAlarm s x y z) (by decide))
  | resumeNotices => exact .acts (State.args0_keeps args none (.quiet (Move.doResumeNotices s) (by decide)))
  | warmRestart => exact .acts (State.args0_keeps args none (Act.doWarmRestart s))
  | envelopeWrite => exact .acts (State.args3_keeps args none fun x y z => Act.doEnvelopeWrite s x _)
  | envelopeLock => exact .acts (State.args0_keeps args none (Act.doEnvelopeLock s))

theorem answer (who : Requester) {f : State → Handled} (k : Work clears s (f s).1) : Work clears s (s.answer who f) := by
  by_cases room : s.path.part.length < partRoom
  · rw [State.answer_room room]
    exact k.then_path (State.enqueuePart_frame _ _ _ _)
  · rw [State.answer_full room]
    exact .acts (.refl s)

/-- The request of code 15 is Clear Stop (R21). -/
theorem code_of_clearStop {code : Byte} (h : RequestCode.ofCode code.toNat = some .clearStop) : code = 15 := by
  have code15 : RequestCode.clearStop.code = code.toNat := by simpa using List.find?_some h
  exact BitVec.eq_of_toNat_eq code15.symm

theorem takeRequest (s : State) (f : Frame) : Work (∃ t1 t0, f.payload = [15, t1, t0]) s (s.takeRequest f) := by
  unfold State.takeRequest
  split
  · next code t1 t0 args payload =>
    refine answer _ ?_
    unfold State.handleRequest
    split
    · next r listed =>
      refine (handleListed s r args).imp fun ⟨isClear, noArgs⟩ => ⟨t1, t0, ?_⟩
      subst isClear noArgs
      rw [payload, code_of_clearStop listed]
    · exact .acts (.refl s)
  · exact .acts (.refl s)

end Work

/-! ## The Frame Sorter -/

namespace Act

theorem toScreen (s : State) (f : Frame) : Act s (s.toScreen f) := by
  have pass : Act s (s.offerForward .field f) := .offer s _ _
  unfold State.toScreen
  split
  · split
    · exact .quiet (Move.screenSpeed s _ _ _ f) (by decide)
    · exact pass
  · split
    · exact .quiet (Move.screenGate s _ _ _ f) (by decide)
    · exact pass
  · exact .screenDoor s _ _ _ f
  · exact pass

theorem treat (s : State) (p : Port) (f : Frame) : Act s (s.treat p f) := by
  have refuse (r : Reason) : Act s (s.refuseUnscreened r f) := .quiet (Move.refuseUnscreened s r f) (by decide)
  unfold State.treat
  dsimp only
  split
  · exact .offer s _ _
  · exact .ite (refuse _) (.post _ _ _ _ _ _ _ _)
  · exact .ite (.ite (refuse _) (.ite (refuse _) (.toScreen s f))) (.ite (.offer s _ _) (.post _ _ _ _ _ _ _ _))

theorem takeCount (s : State) (berth : Berth) (c boarded alighted : Nat) (f : Frame) :
    Act s (s.takeCount berth c boarded alighted f) := by
  have mark (k : Cabin) (x y : Nat) : (k.counted x y).mark = k.mark := by
    unfold Cabin.counted
    dsimp only
    split_ifs <;> rfl
  have set : Act s (s.withCabin c ((s.cabin c).counted boarded alighted)) := .cabin s c _ (mark _ _ _)
  have told (e : Prop) [Decidable e] := Act.ite (p := e) set (set.trans (.postCabin _ c .count))
  exact .ite (.ite (.trans (told _) (.originateOrder _ _ _ _ _)) (told _)) (.trans (told _) (.post _ _ _ _ _ _ _ _))

theorem handOver (s : State) (told : Bool) (f : Frame) : Act s (s.handOver told f) := by
  have above : Act s (s.noteAboveN told f) := .ite (.refl s) (.post _ _ _ _ _ _ _ _)
  unfold State.handOver
  split
  · exact .ite (.trans (.takeGoodRim s _ _) (.afterGrants _ _)) (.losePosition s)
  · exact .ite (.sample s _ _ _) (.refl s)
  · exact .ite (.trans (.takeDoor s _ _) (.afterGrants _ _)) above
  · exact .ite (.takeCount s _ _ _ _ f) above
  · exact .board s _ rfl
  · exact .refl s

end Act

/-- The bytes that ask for the clearing of the latch: a supervisor's Clear Stop REQUEST to the own node (R27, R136). -/
def State.ClearFrame (s : State) (bytes : List Byte) (badStop : Bool) : Prop :=
  ∃ (f : Frame) (t1 t0 : Byte), judge (Staging.fill bytes badStop) = .taken f ∧ f.dest = s.envelope.own ∧
    f.kind = .request ∧ f.payload = [15, t1, t0] ∧ s.requestSupervisor f.src = true

namespace Work

/-- At the supervisor port an arrival is treated or taken; at the field port it is treated or refused, and then noted. -/
theorem arrive (s : State) (p : Port) (bytes : List Byte) (badStop : Bool) :
    Work (p = .supervisor ∧ s.ClearFrame bytes badStop) s (s.arrive p bytes badStop) := by
  refine of_path (s.setStaging_frame p Staging.empty) ?_
  unfold State.arrive State.judgeArrival
  split
  · exact .acts (.post _ _ _ _ _ _ _ _)
  · exact .acts (.post _ _ _ _ _ _ _ _)
  · next f taken =>
    cases p with
    | field =>
      have refused (r : State) : Act r (r.takeOwn .field f) := by
        unfold State.takeOwn
        split <;> first | exact .post _ _ _ _ _ _ _ _ | next isField => cases isField
      exact .acts (.trans (.ite (refused _) (.treat _ _ _)) (.handOver _ _ _))
    | supervisor =>
      unfold State.sortFrame
      dsimp only
      split
      · next own =>
        unfold State.takeOwn
        split
        · next kind _ =>
          split
          · next sup =>
            exact (takeRequest _ f).imp fun ⟨t1, t0, payload⟩ => ⟨rfl, f, t1, t0, taken, own, kind, payload, sup⟩
          · exact .acts (.post _ _ _ _ _ _ _ _)
        · exact .acts (.post _ _ _ _ _ _ _ _)
        · exact .acts (.post _ _ _ _ _ _ _ _)
      · exact .acts (.treat _ _ _)

end Work

/-! ## Commands and steps -/

/-- A command that asks for the clearing of the latch: Clear Stop, or the bytes of its REQUEST at the supervisor port. -/
def State.AsksClear (s : State) (c : Instr) : Prop :=
  (∃ who, c = .clearStop who) ∨
    ∃ bytes badStop, c = .frameArrival .supervisor bytes badStop ∧ s.ClearFrame bytes badStop

/-- An event changes the state by its body's work and by its close. -/
theorem State.takeEvent_work {s : State} {f : State → State} {clears : Prop} (k : Work clears s (f s)) :
    ∃ v, Work (s.phase = .running ∧ clears) s v ∧ v.OnlyChanges (s.takeEvent f) [.path, .notices] := by
  by_cases running : s.phase = .running
  · rw [State.takeEvent_running running]
    exact ⟨f s, k.imp fun asked => ⟨running, asked⟩, (f s).close_frame⟩
  · rw [State.takeEvent_idle running]
    exact ⟨s, .acts (.refl s), .refl _ _⟩

/-- What a command does: its event's work, behind a change of the STOP_IN pin, and the close; a reset; or, with the latch as it
is, the end of a reset or the loss of power. -/
theorem exec_work (c : Instr) (s : State) :
    (∃ t u v, exec c s = .next t ∧ s.OnlyChanges u [.stopIn] ∧
      Work (s.phase = .running ∧ s.AsksClear c ∧ u = s) u v ∧ v.OnlyChanges t [.path, .notices]) ∨
    exec c s = .next s.enterReset ∨
    (∃ t, exec c s = .next t ∧ s.OnlyChanges t [.phase, .mode, .clock, .path, .governor] ∧
      t.governor.latch = s.governor.latch) := by
  have event {f : State → State} {clears : Prop} (e : exec c s = .next (s.takeEvent f)) (k : Work clears s (f s))
      (asks : clears → s.AsksClear c) : ∃ t u v, exec c s = .next t ∧ s.OnlyChanges u [.stopIn] ∧
        Work (s.phase = .running ∧ s.AsksClear c ∧ u = s) u v ∧ v.OnlyChanges t [.path, .notices] := by
    obtain ⟨v, work, closed⟩ := State.takeEvent_work k
    exact ⟨_, s, v, e, .refl _ _, work.imp fun ⟨running, asked⟩ => ⟨running, asks asked, rfl⟩, closed⟩
  have acts {f : State → State} (e : exec c s = .next (s.takeEvent f)) (k : Act s (f s)) :=
    event (clears := False) e (.acts k) False.elim
  have request {r : RequestCode} {args : List Byte} {who : Requester} (hr : requestOf c = some (r, args))
      (hw : c.requester = some who) (asks : r = .clearStop → s.AsksClear c) :=
    event (exec_request hr hw s) (Work.answer who (f := fun s => s.handleListed r args) (Work.handleListed s r args))
      fun asked => asks asked.1
  have pin (v : Bool) {f : State → State} (e : exec c s = .next ((s.withStopIn v).takeEvent f))
      (k : Act (s.withStopIn v) (f (s.withStopIn v))) : ∃ t u v, exec c s = .next t ∧ s.OnlyChanges u [.stopIn] ∧
        Work (s.phase = .running ∧ s.AsksClear c ∧ u = s) u v ∧ v.OnlyChanges t [.path, .notices] := by
    obtain ⟨w, work, closed⟩ := State.takeEvent_work (clears := False) (.acts k)
    exact ⟨_, _, w, e, s.withStopIn_frame v, work.imp (fun asked => asked.2.elim), closed⟩
  cases c with
  | frameArrival p bytes badStop =>
      exact .inl (event rfl (Work.arrive s p bytes badStop) fun ⟨isSup, asked⟩ =>
        .inr ⟨bytes, badStop, by rw [isSup], asked⟩)
  | transmitStart p => exact .inl (acts rfl (.side ((s.choose_frame p).mono (by decide))))
  | transmitCompletion p =>
      exact .inl (acts rfl (.side (((s.endTransmission_frame p).trans (State.choose_frame _ p)).mono (by decide))))
  | noticeFrameBuild => exact .inl (acts rfl (.side (s.buildNotices_frame.mono (by decide))))
  | coldReset cause =>
      cases cause with
      | powerOn => exact .inr (.inl rfl)
      | resetPin =>
          by_cases unpowered : s.phase = .unpowered
          · exact .inr (.inr ⟨s, congrArg Host.Outcome.next (if_pos unpowered), .refl _ _, rfl⟩)
          · exact .inr (.inl (congrArg Host.Outcome.next (if_neg unpowered)))
  | stopInAssertion => exact .inl (pin true rfl (.setLatch _ 0))
  | stopInRelease => exact .inl (pin false rfl (.refl _))
  | quarterTick => exact .inl (acts rfl (.quarter s))
  | rideSecondTick clockFirst => exact .inl (acts rfl (.secondTick s clockFirst))
  | holdDownExpiry => exact .inl (acts rfl (.fall s))
  | channelStale c => exact .inl (acts rfl (.channel s c _))
  | channelLive c => exact .inl (acts rfl (.channel s c _))
  | encoderWatchExpiry => exact .inl (acts rfl (.encoderExpiry s))
  | stalenessTimerExpiry d => exact .inl (acts rfl (.staleExpiry s d))
  | flushTimerExpiry => exact .inl (acts rfl (.flushExpiry s))
  | commitTimerExpiry => exact .inl (acts rfl (.commitExpiry s))
  | commitWalkCompletion w => exact .inl (acts rfl (.walkCompletion s w))
  | swap => exact .inl (acts rfl (.trySwap s))
  | deferredWarmRestart => exact .inl (acts rfl (.ite (.refl s) (.carryOutDeferred s)))
  | endOfColdReset high =>
      refine .inr (.inr ⟨_, rfl, (s.leaveReset_frame high).mono (by decide), ?_⟩)
      unfold State.leaveReset
      split <;> rfl
  | powerLoss => exact .inr (.inr ⟨_, rfl, s.losePower_frame.mono (by decide), rfl⟩)
  | clearStop who => exact .inl (request rfl rfl fun _ => .inl ⟨who, rfl⟩)
  | _ => exact .inl (request rfl rfl nofun)

/-- A property that rests on none of the side blocks, that acts keep, that the writing of the staging bank keeps, and that a reset
brings about or keeps, is kept by every step. -/
theorem step_keeps_of_acts {P : State → Prop} (hside : ∀ s t, s.OnlyChanges t sideBlocks → P s → P t)
    (hact : ∀ s t, Act s t → P s → P t) (hwrite : ∀ s k, P s → P (s.withPolicy (s.policy.setBank s.policy.staging k)))
    (hreset : ∀ s, P s → P s.enterReset) {s t : State} (h : step s = .next t) (hs : P s) : P t := by
  have work {clears : Prop} {s t : State} (k : Work clears s t) (hs : P s) : P t := by
    cases k with
    | acts k => exact hact s t k hs
    | write u k before after => exact hside _ _ (after.mono (by decide)) (hwrite u k (hside _ _ (before.mono (by decide)) hs))
    | clear u _ _ before after =>
      exact hside _ _ (((before.mono (by decide)).trans ((Move.clearLatch u).onlyChanges.mono (by decide))).trans
        (after.mono (by decide))) hs
  have command (c : Instr) (s t : State) (run : exec c s = .next t) (hs : P s) : P t := by
    rcases exec_work c s with ⟨t', u, v, e, pin, did, closed⟩ | e | ⟨t', e, side, -⟩ <;> rw [e] at run <;> cases run
    · exact hside _ _ (closed.mono (by decide)) (work did (hside _ _ (pin.mono (by decide)) hs))
    · exact hreset s hs
    · exact hside _ _ (side.mono (by decide)) hs
  exact step_keeps (fun s q => hside s _ fun x hx => by cases x <;> first | (exfalso; exact hx (by decide)) | rfl) command
    (fun s => hact s _ (.advance s 1)) h hs

end Sys2Proof.Machine
end

section
/-! PROOFS. What the Wind Assessor's operations do to its state, and two of its invariants: the rings of its channels (R97, R98),
and the level above its floors with the live count true (R101, R105). -/

namespace Sys2Proof.Machine

/-! ## What a notice leaves -/

section
variable (s : State) (kind : NoticeKind) (m : Bool) (x d0 d1 d2 d3 : Byte)

@[simp] theorem State.post_keeps_phase : (s.post kind m x d0 d1 d2 d3).phase = s.phase := s.post_phase ..
@[simp] theorem State.post_keeps_path : (s.post kind m x d0 d1 d2 d3).path = s.path := s.post_path ..
@[simp] theorem State.post_mode : (s.post kind m x d0 d1 d2 d3).mode = s.mode :=
  s.post_frame _ _ _ _ _ _ _ .mode (by decide)
@[simp] theorem State.post_stopIn : (s.post kind m x d0 d1 d2 d3).stopIn = s.stopIn :=
  s.post_frame _ _ _ _ _ _ _ .stopIn (by decide)
@[simp] theorem State.post_clock : (s.post kind m x d0 d1 d2 d3).clock = s.clock :=
  s.post_frame _ _ _ _ _ _ _ .clock (by decide)
@[simp] theorem State.post_rim : (s.post kind m x d0 d1 d2 d3).rim = s.rim :=
  s.post_frame _ _ _ _ _ _ _ .rim (by decide)
@[simp] theorem State.post_cabins : (s.post kind m x d0 d1 d2 d3).cabins = s.cabins :=
  s.post_frame _ _ _ _ _ _ _ .cabins (by decide)
@[simp] theorem State.post_board : (s.post kind m x d0 d1 d2 d3).board = s.board :=
  s.post_frame _ _ _ _ _ _ _ .board (by decide)
@[simp] theorem State.post_wind : (s.post kind m x d0 d1 d2 d3).wind = s.wind :=
  s.post_frame _ _ _ _ _ _ _ .wind (by decide)
@[simp] theorem State.post_governor : (s.post kind m x d0 d1 d2 d3).governor = s.governor :=
  s.post_frame _ _ _ _ _ _ _ .governor (by decide)
@[simp] theorem State.post_sweep : (s.post kind m x d0 d1 d2 d3).sweep = s.sweep :=
  s.post_frame _ _ _ _ _ _ _ .sweep (by decide)
@[simp] theorem State.post_policy : (s.post kind m x d0 d1 d2 d3).policy = s.policy :=
  s.post_frame _ _ _ _ _ _ _ .policy (by decide)
@[simp] theorem State.post_envelope : (s.post kind m x d0 d1 d2 d3).envelope = s.envelope :=
  s.post_frame _ _ _ _ _ _ _ .envelope (by decide)
@[simp] theorem State.post_active : (s.post kind m x d0 d1 d2 d3).active = s.active := by
  simp [State.active, State.bank]
@[simp] theorem State.post_cabin (c : Nat) : (s.post kind m x d0 d1 d2 d3).cabin c = s.cabin c := by
  simp [State.cabin]

end

theorem State.active_congr {s t : State} (h : t.policy = s.policy) : t.active = s.active := by
  unfold State.active State.bank
  rw [h]

/-! ## What recomputing leaves -/

section
variable (s : State)

@[simp] theorem State.recomputeCeilings_phase : s.recomputeCeilings.phase = s.phase := rfl
@[simp] theorem State.recomputeCeilings_mode : s.recomputeCeilings.mode = s.mode := rfl
@[simp] theorem State.recomputeCeilings_clock : s.recomputeCeilings.clock = s.clock := rfl
@[simp] theorem State.recomputeCeilings_path : s.recomputeCeilings.path = s.path := rfl
@[simp] theorem State.recomputeCeilings_rim : s.recomputeCeilings.rim = s.rim := rfl
@[simp] theorem State.recomputeCeilings_cabins : s.recomputeCeilings.cabins = s.cabins := rfl
@[simp] theorem State.recomputeCeilings_board : s.recomputeCeilings.board = s.board := rfl
@[simp] theorem State.recomputeCeilings_wind : s.recomputeCeilings.wind = s.wind := rfl
@[simp] theorem State.recomputeCeilings_sweep : s.recomputeCeilings.sweep = s.sweep := rfl
@[simp] theorem State.recomputeCeilings_policy : s.recomputeCeilings.policy = s.policy := rfl
@[simp] theorem State.recomputeCeilings_envelope : s.recomputeCeilings.envelope = s.envelope := rfl
@[simp] theorem State.recomputeCeilings_notices : s.recomputeCeilings.notices = s.notices := rfl

@[simp] theorem State.recomputeBoarding_phase : s.recomputeBoarding.phase = s.phase := rfl
@[simp] theorem State.recomputeBoarding_mode : s.recomputeBoarding.mode = s.mode := rfl
@[simp] theorem State.recomputeBoarding_clock : s.recomputeBoarding.clock = s.clock := rfl
@[simp] theorem State.recomputeBoarding_path : s.recomputeBoarding.path = s.path := rfl
@[simp] theorem State.recomputeBoarding_rim : s.recomputeBoarding.rim = s.rim := rfl
@[simp] theorem State.recomputeBoarding_cabins : s.recomputeBoarding.cabins = s.cabins := rfl
@[simp] theorem State.recomputeBoarding_wind : s.recomputeBoarding.wind = s.wind := rfl
@[simp] theorem State.recomputeBoarding_sweep : s.recomputeBoarding.sweep = s.sweep := rfl
@[simp] theorem State.recomputeBoarding_policy : s.recomputeBoarding.policy = s.policy := rfl
@[simp] theorem State.recomputeBoarding_envelope : s.recomputeBoarding.envelope = s.envelope := rfl
@[simp] theorem State.recomputeBoarding_notices : s.recomputeBoarding.notices = s.notices := rfl

@[simp] theorem State.recomputeWind_phase : s.recomputeWind.phase = s.phase := rfl
@[simp] theorem State.recomputeWind_mode : s.recomputeWind.mode = s.mode := rfl
@[simp] theorem State.recomputeWind_clock : s.recomputeWind.clock = s.clock := rfl
@[simp] theorem State.recomputeWind_path : s.recomputeWind.path = s.path := rfl
@[simp] theorem State.recomputeWind_rim : s.recomputeWind.rim = s.rim := rfl
@[simp] theorem State.recomputeWind_cabins : s.recomputeWind.cabins = s.cabins := rfl
@[simp] theorem State.recomputeWind_board : s.recomputeWind.board = s.board := rfl
@[simp] theorem State.recomputeWind_governor : s.recomputeWind.governor = s.governor := rfl
@[simp] theorem State.recomputeWind_sweep : s.recomputeWind.sweep = s.sweep := rfl
@[simp] theorem State.recomputeWind_policy : s.recomputeWind.policy = s.policy := rfl
@[simp] theorem State.recomputeWind_envelope : s.recomputeWind.envelope = s.envelope := rfl
@[simp] theorem State.recomputeWind_notices : s.recomputeWind.notices = s.notices := rfl

@[simp] theorem State.recomputeBoarding_grants : s.recomputeBoarding.board.grants = s.board.grants := rfl
@[simp] theorem State.recomputeBoarding_gates : s.recomputeBoarding.board.gates = s.board.gates := rfl
@[simp] theorem State.recomputeBoarding_cabin (c : Nat) : s.recomputeBoarding.cabin c = s.cabin c := rfl
@[simp] theorem State.recomputeCeilings_active : s.recomputeCeilings.active = s.active := rfl
@[simp] theorem State.recomputeBoarding_active : s.recomputeBoarding.active = s.active := rfl
@[simp] theorem State.recomputeWind_active : s.recomputeWind.active = s.active := rfl
@[simp] theorem State.recomputeWind_channels : s.recomputeWind.wind.channels = s.wind.channels := rfl
@[simp] theorem State.recomputeWind_level : s.recomputeWind.wind.level = s.wind.level := rfl
@[simp] theorem State.recomputeWind_floor : s.recomputeWind.wind.floor = s.wind.floor := rfl
@[simp] theorem State.recomputeWind_countdown : s.recomputeWind.wind.countdown = s.wind.countdown := rfl
@[simp] theorem State.recomputeWind_sent : s.recomputeWind.wind.sent = s.wind.sent := rfl
@[simp] theorem State.withWind_active (x : WindAssessor) : (s.withWind x).active = s.active := rfl

end

/-! ## Channels -/

@[simp] theorem State.setChannel_wind (s : State) (c : ChannelIx) (x : Channel) :
    (s.setChannel c x).wind = { s.wind with channels := s.wind.channels.set c x } := by
  unfold State.setChannel
  dsimp only
  split
  · rfl
  · exact State.post_wind ..

/-- Channels that take a new record each in turn: what the whole turn makes of them. -/
theorem foldl_channels {f : State → ChannelIx → State} {g : ChannelIx → Channel → Channel} {k : Bank}
    (hwind : ∀ t c, t.active = k → (f t c).wind = { t.wind with channels := t.wind.channels.set c (g c t.wind.channels[c]) })
    (hactive : ∀ t c, (f t c).active = t.active) {s : State} (hs : s.active = k) :
    (channelIndices.foldl f s).wind = { s.wind with channels := Vector.ofFn fun c => g c s.wind.channels[c] } := by
  have a1 : (f s 0).active = k := (hactive ..).trans hs
  have a2 : (f (f s 0) 1).active = k := (hactive ..).trans a1
  have a3 : (f (f (f s 0) 1) 2).active = k := (hactive ..).trans a2
  simp only [channelIndices, List.foldl_cons, List.foldl_nil, hwind _ _ a3, hwind _ _ a2, hwind _ _ a1, hwind _ _ hs]
  congr 1
  ext i hi
  have : i = 0 ∨ i = 1 ∨ i = 2 ∨ i = 3 := by omega
  rcases this with rfl | rfl | rfl | rfl <;> simp

theorem State.setChannel_active (s : State) (c : ChannelIx) (x : Channel) : (s.setChannel c x).active = s.active :=
  (Move.setChannel (q := true) s c x).inputs.active

theorem State.tickChannels_wind (s : State) :
    (channelIndices.foldl State.tickChannel s).wind =
      { s.wind with channels := Vector.ofFn fun c => (s.wind.channels[c]).closeSecond } :=
  foldl_channels (g := fun _ => Channel.closeSecond) (fun t c _ => t.setChannel_wind c _) (fun t c => t.setChannel_active c _)
    rfl

theorem State.reassignChannels_wind (s : State) :
    (channelIndices.foldl State.reassignChannel s).wind =
      { s.wind with
        channels := Vector.ofFn fun c => (s.wind.channels[c]).reassigned (s.active.nodeOf (.anemometer c)) } :=
  foldl_channels (g := fun c x => x.reassigned (s.active.nodeOf (.anemometer c)))
    (fun t c active => by rw [← active]; exact t.setChannel_wind c _) (fun t c => t.setChannel_active c _) rfl

/-! ## Beacons and the level -/

theorem State.refreshBeacon_wind (s : State) (berth : Berth) :
    ∃ sent, (s.refreshBeacon berth).wind = { s.wind with sent := sent } := by
  unfold State.refreshBeacon
  split
  · exact ⟨_, rfl⟩
  · split
    · exact ⟨s.wind.sent, rfl⟩
    · exact ⟨_, rfl⟩

theorem State.refreshBeacons_wind (s : State) : ∃ sent, s.refreshBeacons.wind = { s.wind with sent := sent } := by
  obtain ⟨x, hx⟩ := s.refreshBeacon_wind .a
  obtain ⟨y, hy⟩ := (s.refreshBeacon .a).refreshBeacon_wind .b
  exact ⟨y, by rw [State.refreshBeacons, hy, hx]⟩

theorem State.resendBeacons_wind (s : State) : ∃ sent, s.resendBeacons.wind = { s.wind with sent := sent } := by
  obtain ⟨x, hx⟩ := (s.withWind { s.wind with sent := { a := none, b := none } }).refreshBeacons_wind
  exact ⟨x, hx⟩

theorem State.sweepAdd_wind (s : State) (c : Cause) (src : SweepSource) :
    ∃ sent, (s.sweepAdd c src).wind = { s.wind with sent := sent } := by
  have before : ((s.addCause c).finishSweep s src).wind = s.wind :=
    (((Move.addCause (q := true) s c).mono (by decide)).trans ((Move.finishSweep (q := true) _ s src).mono
      (by decide)) : Move true [.sweep, .cabins, .notices] s _).onlyChanges .wind (by decide)
  unfold State.sweepAdd State.reportClose
  split
  · exact ⟨_, rfl⟩
  · split
    · exact ⟨s.wind.sent, before⟩
    · rw [← before]; exact State.refreshBeacons_wind _

theorem State.sweepRemove_wind (s : State) (c : Cause) (src : SweepSource) :
    ∃ sent, (s.sweepRemove c src).wind = { s.wind with sent := sent } := by
  have before : ((s.removeCause c).finishSweep s src).wind = s.wind :=
    (((Move.removeCause (q := true) s c).mono (by decide)).trans ((Move.finishSweep (q := true) _ s src).mono
      (by decide)) : Move true [.sweep, .cabins, .notices] s _).onlyChanges .wind (by decide)
  unfold State.sweepRemove State.reportClose
  split
  · split
    · exact ⟨s.wind.sent, before⟩
    · rw [← before]; exact State.refreshBeacons_wind _
  · exact ⟨_, rfl⟩

/-- A level change gives the Wind Assessor its level, that level's hold-down, and what the beacons have been sent. -/
theorem State.changeLevel_wind (s : State) (l : Level) : ∃ sent,
    (s.changeLevel l).wind = { s.wind with level := l, countdown := s.active.holdDown l, sent := sent } := by
  let t := (s.withWind { s.wind with level := l, countdown := s.active.holdDown l }).postLevel s.wind.level
  have level : t.wind = { s.wind with level := l, countdown := s.active.holdDown l } := State.post_wind ..
  have before : t.recomputeCeilings.sweepLevel.wind = t.wind :=
    ((Move.sweepLevel (q := true) t.recomputeCeilings).onlyChanges .wind (by decide)).trans rfl
  obtain ⟨x, hx⟩ := t.recomputeCeilings.sweepLevel.refreshBeacons_wind
  exact ⟨x, by rw [State.changeLevel, hx, before, level]⟩

theorem State.raiseLevel_of_lt {s : State} {l : Level} (h : s.wind.level.code < l.code) : s.raiseLevel l = s.changeLevel l :=
  if_pos h

theorem State.raiseLevel_of_le {s : State} {l : Level} (h : l.code ≤ s.wind.level.code) : s.raiseLevel l = s :=
  if_neg (Nat.not_lt.2 h)

/-- What a raise keeps of the Wind Assessor's state, and that the level is then the higher of the two. -/
theorem State.raiseLevel_wind (s : State) (l : Level) : ∃ countdown sent,
    (s.raiseLevel l).wind = { s.wind with level := s.wind.level.max l, countdown := countdown, sent := sent } := by
  by_cases below : s.wind.level.code < l.code
  · obtain ⟨sent, wind⟩ := s.changeLevel_wind l
    exact ⟨_, sent, by rw [State.raiseLevel_of_lt below, wind, Level.max, if_pos below]⟩
  · refine ⟨s.wind.countdown, s.wind.sent, ?_⟩
    rw [State.raiseLevel_of_le (Nat.not_lt.1 below), Level.max, if_neg below]

theorem State.applyFloors_wind (s : State) : ∃ countdown sent,
    s.applyFloors.wind = { s.wind with level := s.wind.level.max s.floorLevel, countdown := countdown, sent := sent } :=
  s.raiseLevel_wind s.floorLevel

/-- What a descent keeps, and the two levels it can end at. -/
theorem State.descend_wind (s : State) : ∃ level countdown sent,
    s.descend.wind = { s.wind with level := level, countdown := countdown, sent := sent } ∧
      (level = s.wind.level ∨ s.levelClear = true ∧ level = s.wind.level.down) := by
  unfold State.descend
  split
  · exact ⟨s.wind.level, _, s.wind.sent, rfl, .inl rfl⟩
  · split
    · next clear =>
      split
      · obtain ⟨sent, wind⟩ := s.changeLevel_wind s.wind.level.down
        exact ⟨_, _, sent, wind, .inr ⟨clear, rfl⟩⟩
      · exact ⟨s.wind.level, _, s.wind.sent, rfl, .inl rfl⟩
    · exact ⟨s.wind.level, _, s.wind.sent, rfl, .inl rfl⟩

/-! ## The rings of a channel -/

theorem Channel.unassigned_ringsAgree : Channel.unassigned.RingsAgree :=
  ⟨rfl, rfl, by decide, by decide, nofun, nofun, fun _ => ⟨rfl, rfl⟩⟩

section
variable {x : Channel}

theorem Channel.RingsAgree.clearBucket (h : x.RingsAgree) : x.clearBucket.RingsAgree :=
  ⟨h.sum, h.filled, h.sust, h.gust, h.warming, h.live, h.silent⟩

theorem Channel.RingsAgree.withStale (h : x.RingsAgree) (n : Nat) : ({ x with stale := n } : Channel).RingsAgree :=
  ⟨h.sum, h.filled, h.sust, h.gust, h.warming, h.live, h.silent⟩

theorem Channel.goStale_ringsAgree : x.goStale.RingsAgree :=
  ⟨rfl, rfl, Nat.zero_le _, Nat.zero_le _, nofun, nofun, fun _ => ⟨rfl, rfl⟩⟩

/-- A ring with a new entry holds its newest `k` entries (R97). -/
theorem pushRing_eq_drop {k : Nat} {ring : List Nat} (h : ring.length ≤ k) (hk : 0 < k) (v : Nat) :
    pushRing k ring v = (ring ++ [v]).drop (ring.length + 1 - k) := by
  unfold pushRing
  split
  · next short => rw [Nat.sub_eq_zero_of_le short, List.drop_zero]
  · next full =>
    obtain ⟨a, as, rfl⟩ : ∃ a as, ring = a :: as := List.exists_cons_of_length_pos (by omega)
    have : (a :: as).length + 1 - k = 1 := by omega
    rw [this]
    rfl

theorem pushRing_length {k : Nat} {ring : List Nat} (h : ring.length ≤ k) (hk : 0 < k) (v : Nat) :
    (pushRing k ring v).length = min (ring.length + 1) k := by
  rw [pushRing_eq_drop h hk]
  simp only [List.length_drop, List.length_append, List.length_singleton]
  omega

/-- The sum of a ring with a new entry: the oldest entry of a full ring leaves it. -/
theorem sum_pushRing (k : Nat) (ring : List Nat) (v : Nat) :
    (pushRing k ring v).sum = ring.sum + v - (if k ≤ ring.length then ring.headD 0 else 0) := by
  unfold pushRing
  split
  · next short => rw [if_neg (by omega), List.sum_append, List.sum_singleton, Nat.sub_zero]
  · next full =>
    rw [if_pos (by omega)]
    cases ring with
    | nil => simp
    | cons a as =>
      simp only [List.tail_cons, List.sum_append, List.sum_cons, List.sum_nil, List.headD_cons]
      omega

/-- A pushed second keeps the rings and their counts in agreement; a WARMING channel is LIVE at its third. -/
theorem Channel.RingsAgree.push (h : x.RingsAgree) (v : SecondValues) (open_ : x.state = .warming ∨ x.state = .live) :
    (x.push v).RingsAgree := by
  have sust := pushRing_length (k := sustPlaces) h.sust (by decide) v.mean
  have gust := pushRing_length (k := gustPlaces) h.gust (by decide) v.max
  have sum : (pushRing sustPlaces x.sustRing v.mean).sum =
      x.sustSum + v.mean - (if sustPlaces ≤ x.sustRing.length then x.sustRing.headD 0 else 0) := by
    rw [sum_pushRing, h.sum]
  have filled : (if sustPlaces ≤ x.sustRing.length then x.filled else x.filled + 1) =
      (pushRing sustPlaces x.sustRing v.mean).length := by
    rw [sust, h.filled]
    have := h.sust
    unfold sustPlaces
    split <;> omega
  unfold sustPlaces at sust
  unfold gustPlaces at gust
  unfold Channel.push
  dsimp only
  split
  · next warming =>
    obtain ⟨few, sustWarm, gustWarm⟩ := h.warming warming
    refine ⟨sum.symm, filled, ?sust, ?gust, fun isWarming => ?warming, fun isLive => ?live, fun silent => ?silent⟩ <;>
      dsimp only at *
    case sust => exact sust.trans_le (Nat.min_le_right _ _)
    case gust => exact gust.trans_le (Nat.min_le_right _ _)
    case warming =>
      split at isWarming
      · cases isWarming
      · exact ⟨by omega, by unfold sustPlaces; omega, by unfold gustPlaces; omega⟩
    case live =>
      split at isLive
      · exact ⟨by unfold sustPlaces; omega, by unfold gustPlaces; omega⟩
      · cases isLive
    case silent => split at silent <;> rcases silent with silent | silent <;> cases silent
  · next notWarming =>
    have live := open_.resolve_left notWarming
    obtain ⟨sustLive, gustLive⟩ := h.live live
    refine ⟨sum.symm, filled, sust.trans_le (Nat.min_le_right _ _), gust.trans_le (Nat.min_le_right _ _),
      fun isWarming => absurd isWarming notWarming, fun _ => ?live, fun silent => ?silent⟩ <;> dsimp only at *
    case live => exact ⟨by unfold sustPlaces; omega, by unfold gustPlaces; omega⟩
    case silent => rw [live] at silent; rcases silent with silent | silent <;> cases silent

theorem Channel.RingsAgree.closeSecond (h : x.RingsAgree) : x.closeSecond.RingsAgree := by
  have second (open_ : x.state = .warming ∨ x.state = .live) :
      (if 0 < x.bucketCount then
        ({ x with stale := 0 }.push { max := x.bucketMax, mean := x.bucketSum / x.bucketCount }).clearBucket
      else if 2 ≤ x.stale then x.goStale.clearBucket
      else match x.held with
        | some v => ({ x with stale := x.stale + 1 }.push v).clearBucket
        | none => { x with stale := x.stale + 1 }.clearBucket).RingsAgree := by
    split
    · exact ((h.withStale 0).push _ open_).clearBucket
    · split
      · exact Channel.goStale_ringsAgree.clearBucket
      · split
        · exact ((h.withStale (x.stale + 1)).push _ open_).clearBucket
        · exact (h.withStale _).clearBucket
  unfold Channel.closeSecond
  split
  · exact h
  · exact h
  · next warming => exact second (.inl warming)
  · next live => exact second (.inr live)

theorem Channel.RingsAgree.woken (h : x.RingsAgree) : x.woken.RingsAgree := by
  unfold Channel.woken
  split
  · next stale =>
    obtain ⟨sust, gust⟩ := h.silent (.inr stale)
    exact ⟨h.sum, h.filled, h.sust, h.gust, fun _ => ⟨Nat.zero_lt_succ 2, by simp [sust], by simp [gust]⟩, nofun, nofun⟩
  · exact h

theorem Channel.RingsAgree.sampled (h : x.RingsAgree) (speed direction : Nat) : (x.sampled speed direction).RingsAgree := by
  unfold Channel.sampled
  dsimp only
  split <;> exact ⟨h.sum, h.filled, h.sust, h.gust, h.warming, h.live, h.silent⟩

theorem Channel.RingsAgree.reassigned (h : x.RingsAgree) (n : Option Byte) : (x.reassigned n).RingsAgree := by
  unfold Channel.reassigned
  split
  · exact Channel.unassigned_ringsAgree
  · split
    · exact h
    · exact ⟨rfl, rfl, Nat.zero_le _, Nat.zero_le _, fun _ => ⟨Nat.zero_lt_succ 2, rfl, rfl⟩, nofun, nofun⟩

theorem Channel.RingsAgree.restarted (h : x.RingsAgree) : x.restarted.RingsAgree := by
  unfold Channel.restarted
  split
  · exact h
  · exact ⟨rfl, rfl, Nat.zero_le _, Nat.zero_le _, fun _ => ⟨Nat.zero_lt_succ 2, rfl, rfl⟩, nofun, nofun⟩

end

/-! ## The Wind Assessor's operations, whole -/

section
variable (s : State)

theorem State.takeSample_channels (c : ChannelIx) (speed direction : Nat) :
    (s.takeSample c speed direction).wind.channels =
      if (s.wind.channels[c]).state = .unassigned then s.wind.channels
      else s.wind.channels.set c ((s.wind.channels[c]).woken.sampled speed direction) := by
  unfold State.takeSample
  dsimp only
  split
  · rfl
  · split <;> simp [State.recomputeWind, State.withChannel]

theorem State.changeLevel_channels (l : Level) : (s.changeLevel l).wind.channels = s.wind.channels := by
  obtain ⟨_, wind⟩ := s.changeLevel_wind l
  rw [wind]

theorem State.applyFloors_channels : s.applyFloors.wind.channels = s.wind.channels := by
  obtain ⟨_, _, wind⟩ := s.applyFloors_wind
  rw [wind]

theorem State.tickLevel_channels : s.tickLevel.wind.channels = s.wind.channels := by
  unfold State.tickLevel
  split
  · exact s.changeLevel_channels _
  · obtain ⟨_, _, _, wind, -⟩ := s.descend_wind
    rw [wind]

theorem State.windTick_channels :
    s.windTick.wind.channels = Vector.ofFn fun c => (s.wind.channels[c]).closeSecond := by
  rw [State.windTick, State.tickLevel_channels, State.recomputeWind_channels, s.tickChannels_wind]

theorem State.holdDownFall_channels : s.holdDownFall.wind.channels = s.wind.channels := by
  unfold State.holdDownFall
  split
  · exact s.changeLevel_channels _
  · rfl

theorem State.channelStep_channels (c : ChannelIx) (st : ChannelState) :
    (s.channelStep c st).wind.channels = s.wind.channels ∨
      (s.channelStep c st).wind.channels = s.wind.channels.set c (s.wind.channels[c]).closeSecond := by
  unfold State.channelStep
  dsimp only
  split
  · refine .inr ?_
    rw [State.applyFloors_channels, State.recomputeWind_channels, State.setChannel_wind]
  · exact .inl rfl

theorem State.windRestart_channels :
    s.windRestart.wind.channels = Vector.ofFn fun c => (s.wind.channels[c]).restarted := by
  obtain ⟨_, wind⟩ := State.resendBeacons_wind (State.applyFloors
    (State.recomputeWind (s.withWind { s.wind with channels := Vector.ofFn fun c => (s.wind.channels[c]).restarted })))
  rw [State.windRestart, wind]
  dsimp only
  rw [State.applyFloors_channels, State.recomputeWind_channels, State.withWind_wind]

/-- The state in which the new bank's floors are judged: its channels assigned and the effective wind recomputed. -/
def State.reassigned (s : State) : State := (channelIndices.foldl State.reassignChannel s).recomputeWind

theorem State.windBankChange_eq : s.windBankChange =
    (if s.reassigned.wind.level.code < s.reassigned.floorLevel.code then s.reassigned.applyFloors
      else s.reassigned.trimCountdown).resendBeacons := rfl

theorem State.reassigned_channels : s.reassigned.wind.channels =
    Vector.ofFn fun c => (s.wind.channels[c]).reassigned (s.active.nodeOf (.anemometer c)) := by
  rw [State.reassigned, State.recomputeWind_channels, s.reassignChannels_wind]

theorem State.windBankChange_channels :
    s.windBankChange.wind.channels =
      Vector.ofFn fun c => (s.wind.channels[c]).reassigned (s.active.nodeOf (.anemometer c)) := by
  rw [State.windBankChange_eq]
  split
  · obtain ⟨_, wind⟩ := s.reassigned.applyFloors.resendBeacons_wind
    rw [wind, State.applyFloors_channels, State.reassigned_channels]
  · obtain ⟨_, wind⟩ := s.reassigned.trimCountdown.resendBeacons_wind
    rw [wind, State.trimCountdown, State.withWind_wind, State.reassigned_channels]

theorem State.takeBank_wind : s.takeBank.wind = s.rimBankChange.windBankChange.wind := by
  rw [State.takeBank, State.recomputeBoarding_wind]

@[simp] theorem State.rimBankChange_wind : s.rimBankChange.wind = s.wind := by
  rw [State.rimBankChange, State.withRim_wind]

@[simp] theorem State.rimBankChange_active : s.rimBankChange.active = s.active :=
  State.active_congr (by rw [State.rimBankChange, State.withRim_policy])

theorem State.takeBank_channels :
    s.takeBank.wind.channels =
      Vector.ofFn fun c => (s.wind.channels[c]).reassigned (s.active.nodeOf (.anemometer c)) := by
  rw [State.takeBank_wind, State.windBankChange_channels, State.rimBankChange_wind, State.rimBankChange_active]

end

/-! ## The rings at every step -/

def State.RingsAgree (s : State) : Prop := ∀ c : ChannelIx, (s.wind.channels[c]).RingsAgree

theorem State.ringsAgree_of_eq {s t : State} (h : t.wind.channels = s.wind.channels) (g : s.RingsAgree) : t.RingsAgree := by
  unfold State.RingsAgree
  rw [h]
  exact g

theorem State.ringsAgree_of_frame {s t : State} {bs : List Block} (h : s.OnlyChanges t bs) (wind : Block.wind ∉ bs)
    (g : s.RingsAgree) : t.RingsAgree :=
  State.ringsAgree_of_eq (congrArg WindAssessor.channels (h .wind wind)) g

theorem State.ringsAgree_of_ofFn {t : State} {f : ChannelIx → Channel}
    (h : t.wind.channels = Vector.ofFn f) (g : ∀ c, (f c).RingsAgree) : t.RingsAgree := by
  intro c
  rw [h]
  simpa using g c

theorem State.ringsAgree_of_set {s t : State} {c : ChannelIx} {x : Channel}
    (h : t.wind.channels = s.wind.channels.set c x) (hx : x.RingsAgree) (g : s.RingsAgree) : t.RingsAgree := by
  intro e
  rw [h]
  by_cases same : c = e
  · subst same; simpa using hx
  · have : c.val ≠ e.val := fun h => same (Fin.ext h)
    simpa [this] using g e

theorem Act.ringsAgree {s t : State} (h : Act s t) : s.RingsAgree → t.RingsAgree := by
  have of {q : Bool} {bs : List Block} {s t : State} (m : Move q bs s t) (wind : Block.wind ∉ bs) :
      s.RingsAgree → t.RingsAgree := State.ringsAgree_of_frame m.onlyChanges wind
  induction h with
  | keep h _ _ => exact State.ringsAgree_of_frame h (by decide)
  | cabin s c x _ => exact State.ringsAgree_of_eq (by rw [State.withCabin_wind])
  | board | regrant | release | cancel | served | lock => exact id
  | endGrant s berth g _ => exact of (Move.endGrant s berth g) (by decide)
  | exit s c berth => exact of (Move.sweepExit (q := true) s c berth) (by decide)
  | occupancy s c _ => exact of (Move.sweepOccupancy (q := true) s c) (by decide)
  | service s c => exact of (Move.sweepService (q := true) s c) (by decide)
  | addCause s c src =>
      obtain ⟨_, wind⟩ := s.sweepAdd_wind c src
      exact State.ringsAgree_of_eq (by rw [wind])
  | removeCause s c src =>
      obtain ⟨_, wind⟩ := s.sweepRemove_wind c src
      exact State.ringsAgree_of_eq (by rw [wind])
  | sample s c speed direction =>
      intro g
      have channels := s.takeSample_channels c speed direction
      split at channels
      · exact State.ringsAgree_of_eq channels g
      · exact State.ringsAgree_of_set channels ((g c).woken.sampled speed direction) g
  | tick s => exact fun g => State.ringsAgree_of_ofFn s.windTick_channels fun c => (g c).closeSecond
  | fall s => exact State.ringsAgree_of_eq s.holdDownFall_channels
  | channel s c st =>
      intro g
      rcases s.channelStep_channels c st with same | closed
      · exact State.ringsAgree_of_eq same g
      · exact State.ringsAgree_of_set closed (g c).closeSecond g
  | floor s l => exact State.ringsAgree_of_eq (by rw [State.applyFloors_channels, State.withWind_wind])
  | rewind s => exact fun g => State.ringsAgree_of_ofFn s.windRestart_channels fun c => (g c).restarted
  | newBank p _ _ _ h =>
      intro g
      have notice := State.ringsAgree_of_frame h (by decide) g
      exact State.ringsAgree_of_ofFn (State.takeBank_channels _) fun c => (notice c).reassigned _
  | envelope s field v lo hi _ _ _ => exact of (Move.takeEnvelope s _) (by decide)
  | trans _ _ ih ik => exact ik ∘ ih

/-- Settles O9: every operation of the Wind Assessor gives a channel a record whose rings agree, and a reset an UNASSIGNED one. -/
theorem windRingsAgreeIsKept : Obligations.WindRingsAgreeIsKept := by
  intro s t agree run
  exact step_keeps_of_acts (P := State.RingsAgree) (fun _ _ h => State.ringsAgree_of_frame h (by decide))
    (fun _ _ => Act.ringsAgree) (fun _ _ => id)
    (fun _ _ c => by simpa [State.enterReset, State.inReset, State.withResetConditions, WindAssessor.reset] using
      Channel.unassigned_ringsAgree) run agree

end Sys2Proof.Machine
end

section
/-! PROOFS. The level above its floors with the live count true (R101, R105), and the bank in force apart from the one that is
written (R158, R166). -/

namespace Sys2Proof.Machine

variable {s t : State}

/-! ## Levels -/

theorem Level.code_max (x y : Level) : (x.max y).code = Max.max x.code y.code := by
  unfold Level.max
  split <;> omega

theorem Level.code_injective {x y : Level} (h : x.code = y.code) : x = y := by
  cases x <;> cases y <;> first | rfl | cases h

theorem Level.code_le (x : Level) : x.code ≤ 4 := by cases x <;> decide

theorem Level.down_code (x : Level) : x.down.code = x.code - 1 := by cases x <;> rfl

/-! ## The law and what it rests on -/

theorem State.liveChannels_of_states (h : ∀ c : ChannelIx, (t.wind.channels[c]).state = (s.wind.channels[c]).state) :
    t.liveChannels = s.liveChannels := by
  unfold State.liveChannels
  simp only [h]

theorem State.liveChannels_congr (h : t.wind.channels = s.wind.channels) : t.liveChannels = s.liveChannels :=
  State.liveChannels_of_states fun c => by rw [h]

theorem State.belowQuorum_congr (active : t.active = s.active) (live : t.wind.live = s.wind.live) :
    t.belowQuorum = s.belowQuorum := by
  rw [State.belowQuorum, State.belowQuorum, active, live]

/-- The law holds where the live count is true and the level is not below what the floors ask for. -/
theorem State.levelLaw_of_floorLevel (live : s.wind.live = s.liveChannels.length)
    (above : s.floorLevel.code ≤ s.wind.level.code) : s.LevelLaw := by
  unfold State.floorLevel at above
  rw [Level.code_max] at above
  refine ⟨live, (le_max_right _ _).trans above, fun few => ?_⟩
  rw [if_pos few, Level.code_max] at above
  exact ((le_max_right _ _).trans (le_max_left _ _)).trans above

theorem State.floorLevel_code (s : State) : s.floorLevel.code =
    max (max s.wind.level.code (if s.belowQuorum = true then s.active.floorsRecord.blind.code else 0)) s.wind.floor.code := by
  unfold State.floorLevel
  rw [Level.code_max]
  split
  · rw [Level.code_max]
  · rw [Nat.max_eq_left (Nat.zero_le _)]

/-- The law rests on the bank in force, the states of the channels, the live count, the level and the floor. -/
theorem State.LevelLaw.congr (law : s.LevelLaw) (active : t.active = s.active)
    (states : ∀ c : ChannelIx, (t.wind.channels[c]).state = (s.wind.channels[c]).state) (live : t.wind.live = s.wind.live)
    (level : t.wind.level = s.wind.level) (floor : t.wind.floor = s.wind.floor) : t.LevelLaw := by
  refine ⟨?_, ?_, ?_⟩
  · rw [live, State.liveChannels_of_states states]; exact law.live
  · rw [State.AboveFloor, level, floor]; exact law.floor
  · rw [State.belowQuorum_congr active live, active, level]; exact law.blind

theorem State.LevelLaw.of_wind (law : s.LevelLaw) (policy : t.policy = s.policy)
    (wind : ∃ countdown sent, t.wind = { s.wind with countdown := countdown, sent := sent }) : t.LevelLaw := by
  obtain ⟨_, _, wind⟩ := wind
  exact law.congr (State.active_congr policy) (fun c => by rw [wind]) (by rw [wind]) (by rw [wind]) (by rw [wind])

theorem State.LevelLaw.of_frame {bs : List Block} (law : s.LevelLaw) (h : s.OnlyChanges t bs) (wind : Block.wind ∉ bs)
    (policy : Block.policy ∉ bs) : t.LevelLaw :=
  law.of_wind (h .policy policy) ⟨s.wind.countdown, s.wind.sent, h .wind wind⟩

/-! ## Changes of the level -/

theorem State.changeLevel_policy (s : State) (l : Level) : (s.changeLevel l).policy = s.policy :=
  (Move.changeLevel s l).onlyChanges .policy (by decide)

theorem State.changeLevel_levelLaw {l : Level} (live : s.wind.live = s.liveChannels.length)
    (floor : s.wind.floor.code ≤ l.code) (blind : s.belowQuorum = true → s.active.floorsRecord.blind.code ≤ l.code) :
    (s.changeLevel l).LevelLaw := by
  obtain ⟨_, wind⟩ := s.changeLevel_wind l
  have active := State.active_congr (s.changeLevel_policy l)
  refine ⟨?_, ?_, ?_⟩
  · rw [State.liveChannels_congr (s.changeLevel_channels l), wind]; exact live
  · rw [State.AboveFloor, wind]; exact floor
  · rw [State.belowQuorum_congr active (by rw [wind]), active, wind]; exact blind

/-- Applying the floors brings the law about, whatever the level was. -/
theorem State.applyFloors_levelLaw (live : s.wind.live = s.liveChannels.length) : s.applyFloors.LevelLaw := by
  unfold State.applyFloors
  have asked := s.floorLevel_code
  by_cases below : s.wind.level.code < s.floorLevel.code
  · rw [State.raiseLevel_of_lt below]
    refine State.changeLevel_levelLaw live (by omega) fun few => ?_
    rw [if_pos few] at asked
    omega
  · rw [State.raiseLevel_of_le (Nat.not_lt.1 below)]
    exact State.levelLaw_of_floorLevel live (Nat.not_lt.1 below)

/-- A clear level is above both floors, so one step down it still keeps them. -/
theorem State.levelClear_above (clear : s.levelClear = true) : s.wind.floor.code < s.wind.level.code ∧
    (s.belowQuorum = true → s.active.floorsRecord.blind.code < s.wind.level.code) := by
  simp only [State.levelClear, Bool.and_eq_true, Bool.or_eq_true, decide_eq_true_eq, Bool.not_eq_true'] at clear
  obtain ⟨⟨⟨-, -⟩, blind⟩, floor⟩ := clear
  exact ⟨floor, fun few => blind.resolve_left (by simp [few])⟩

theorem State.fall_levelLaw (live : s.wind.live = s.liveChannels.length) (clear : s.levelClear = true) :
    (s.changeLevel s.wind.level.down).LevelLaw := by
  obtain ⟨floor, blind⟩ := State.levelClear_above clear
  refine State.changeLevel_levelLaw live ?_ fun few => ?_ <;> rw [Level.down_code]
  · omega
  · have := blind few; omega

theorem State.targetLevel_code (s : State) : s.wind.floor.code ≤ s.targetLevel.code ∧
    (s.belowQuorum = true → s.active.floorsRecord.blind.code ≤ s.targetLevel.code) := by
  unfold State.targetLevel
  rw [Level.code_max]
  refine ⟨le_max_right _ _, fun few => ?_⟩
  rw [if_pos few, Level.code_max]
  exact (le_max_right _ _).trans (le_max_left _ _)

/-- At a tick a level at or above its target keeps the floors where it stays, and where it falls it was clear. -/
theorem State.tickLevel_levelLaw (live : s.wind.live = s.liveChannels.length) : s.tickLevel.LevelLaw := by
  obtain ⟨floor, blind⟩ := s.targetLevel_code
  unfold State.tickLevel
  split
  · exact State.changeLevel_levelLaw live floor blind
  · next reached =>
    have law : s.LevelLaw := ⟨live, floor.trans (Nat.not_lt.1 reached), fun few => (blind few).trans (Nat.not_lt.1 reached)⟩
    have counted (n : Nat) : (s.withWind { s.wind with countdown := n }).LevelLaw := law.of_wind rfl ⟨n, s.wind.sent, rfl⟩
    unfold State.descend
    split
    · exact counted 0
    · split
      · next clear =>
        split
        · exact State.fall_levelLaw live clear
        · exact counted _
      · exact counted _

theorem State.recomputeWind_live (s : State) : s.recomputeWind.wind.live = s.recomputeWind.liveChannels.length := rfl

/-! ## Samples, restarts and banks -/

theorem Channel.woken_live (x : Channel) : x.woken.state = .live ↔ x.state = .live := by
  unfold Channel.woken
  split
  · next stale => simp [stale]
  · rfl

theorem Channel.sampled_state (x : Channel) (speed direction : Nat) : (x.sampled speed direction).state = x.state := by
  unfold Channel.sampled
  dsimp only
  split <;> rfl

theorem State.takeSample_levelLaw (c : ChannelIx) (speed direction : Nat) (law : s.LevelLaw) :
    (s.takeSample c speed direction).LevelLaw := by
  have policy : (s.takeSample c speed direction).policy = s.policy :=
    (Move.takeSample (q := true) s c speed direction).onlyChanges .policy (by decide)
  have moved := (Move.takeSample s c speed direction).inputs
  have channels := s.takeSample_channels c speed direction
  have live : (s.takeSample c speed direction).liveChannels = s.liveChannels := by
    unfold State.liveChannels
    congr 1
    funext e
    rw [channels]
    split
    · rfl
    · by_cases same : c = e
      · subst same; simp [Channel.sampled_state, Channel.woken_live]
      · have : c.val ≠ e.val := fun h => same (Fin.ext h)
        simp [this]
  have count : (s.takeSample c speed direction).wind.live = s.wind.live := by
    rw [law.live, ← live]
    unfold State.takeSample at live ⊢
    dsimp only at live ⊢
    split
    · exact law.live
    · next assigned =>
      split
      · rfl
      · rw [if_neg assigned, if_neg ‹_›] at live
        rw [live]
        simpa [State.withChannel] using law.live
  refine ⟨?_, ?_, ?_⟩
  · rw [count, live]; exact law.live
  · rw [State.AboveFloor, moved.level, moved.floor]; exact law.floor
  · rw [State.belowQuorum_congr moved.active count, moved.active, moved.level]; exact law.blind

theorem State.resendBeacons_levelLaw (law : s.LevelLaw) : s.resendBeacons.LevelLaw := by
  obtain ⟨sent, wind⟩ := s.resendBeacons_wind
  exact law.of_wind ((Move.resendBeacons (q := true) s).onlyChanges .policy (by decide)) ⟨_, sent, wind⟩

theorem State.windRestart_levelLaw (s : State) : s.windRestart.LevelLaw :=
  State.resendBeacons_levelLaw (State.applyFloors_levelLaw (State.recomputeWind_live _))

theorem State.trimCountdown_levelLaw (law : s.LevelLaw) : s.trimCountdown.LevelLaw := law.of_wind rfl ⟨_, _, rfl⟩

theorem State.windBankChange_levelLaw (s : State) : s.windBankChange.LevelLaw := by
  rw [State.windBankChange_eq]
  refine State.resendBeacons_levelLaw ?_
  split
  · exact State.applyFloors_levelLaw (State.recomputeWind_live _)
  · next above =>
    exact State.trimCountdown_levelLaw (State.levelLaw_of_floorLevel (State.recomputeWind_live _) (Nat.not_lt.1 above))

/-- Once the blocks have taken a bank the law holds, whatever bank it is. -/
theorem State.takeBank_levelLaw (s : State) : s.takeBank.LevelLaw :=
  s.rimBankChange.windBankChange_levelLaw.of_frame (Move.recomputeBoarding _).onlyChanges (by decide) (by decide)

/-! ## The banks apart -/

theorem State.banksApart_of_frame {bs : List Block} (h : s.OnlyChanges t bs) (policy : Block.policy ∉ bs)
    (apart : s.BanksApart) : t.BanksApart := by
  have same : t.policy = s.policy := h .policy policy
  unfold State.BanksApart
  rw [same]
  exact apart

theorem PolicyStore.SameBanks.apart {p : PolicyStore} (same : s.policy.SameBanks p) (policy : t.policy = p)
    (apart : s.BanksApart) : t.BanksApart := by
  obtain ⟨away, commit⟩ := apart
  unfold State.BanksApart
  rw [policy, same.active, same.staging]
  refine ⟨away, ?_⟩
  rcases same.commit with kept | gone | staged
  · rw [kept]; exact commit
  · exact .inl gone
  · exact .inr staged

theorem PolicyStore.SameBanks.active_eq {p : PolicyStore} (same : s.policy.SameBanks p) (policy : t.policy = p) :
    t.active = s.active := by
  unfold State.active State.bank
  rw [policy, same.active, same.bank1, same.bank2]

@[simp] theorem PolicyStore.setBank_active (p : PolicyStore) (x : LoadBank) (k : Bank) :
    (p.setBank x k).active = p.active := by cases x <;> rfl
@[simp] theorem PolicyStore.setBank_staging (p : PolicyStore) (x : LoadBank) (k : Bank) :
    (p.setBank x k).staging = p.staging := by cases x <;> rfl
@[simp] theorem PolicyStore.setBank_commitBank (p : PolicyStore) (x : LoadBank) (k : Bank) :
    (p.setBank x k).commitBank = p.commitBank := by cases x <;> rfl

theorem State.write_banksApart (k : Bank) (apart : s.BanksApart) :
    (s.withPolicy (s.policy.setBank s.policy.staging k)).BanksApart := by
  simpa [State.BanksApart] using apart

theorem State.takeBank_policy (s : State) : s.takeBank.policy = s.policy := by
  rw [State.takeBank, State.recomputeBoarding_policy]
  exact ((Move.windBankChange _).onlyChanges .policy (by decide)).trans (by rw [State.rimBankChange, State.withRim_policy])

theorem State.enterReset_banksApart (s : State) : s.enterReset.BanksApart := s.enterReset_governed.1

/-! ## The two laws at every step -/

/-- Only a new bank in force changes anything of the banks' numbers, and it comes apart from the staging bank. -/
theorem Act.banksApart (h : Act s t) : s.BanksApart → t.BanksApart := by
  have of {q : Bool} {bs : List Block} {s t : State} (m : Move q bs s t) (policy : Block.policy ∉ bs) :
      s.BanksApart → t.BanksApart := State.banksApart_of_frame m.onlyChanges policy
  induction h with
  | keep h _ banks => exact banks.apart rfl
  | cabin s c x _ => exact of (Move.withCabin (q := false) (bs := [.cabins]) s c x (by decide) (by simp)) (by decide)
  | board | regrant | release | cancel | served | lock => exact id
  | endGrant s berth g _ => exact of (Move.endGrant s berth g) (by decide)
  | exit s c berth => exact of (Move.sweepExit (q := true) s c berth) (by decide)
  | occupancy s c _ => exact of (Move.sweepOccupancy (q := true) s c) (by decide)
  | service s c => exact of (Move.sweepService (q := true) s c) (by decide)
  | addCause s c src => exact of (Move.sweepAdd (q := true) s c src) (by decide)
  | removeCause s c src => exact of (Move.sweepRemove (q := true) s c src) (by decide)
  | sample s c speed direction => exact of (Move.takeSample (q := true) s c speed direction) (by decide)
  | tick s => exact of (Move.windTick s) (by decide)
  | fall s => exact of (Move.holdDownFall s) (by decide)
  | channel s c st => exact of (Move.channelStep s c st) (by decide)
  | floor s l => exact of (s := s.withWind { s.wind with floor := l }) (Move.applyFloors _) (by decide)
  | rewind s => exact of (Move.windRestart s) (by decide)
  | newBank p _ _ apart h =>
      intro before
      have notice := State.banksApart_of_frame h (by decide) (apart before)
      unfold State.BanksApart
      rw [State.takeBank_policy]
      exact notice
  | envelope s field v lo hi _ _ _ => exact of (Move.takeEnvelope s _) (by decide)
  | trans _ _ ih ik => exact ik ∘ ih

theorem Act.levelLaw (h : Act s t) : s.LevelLaw → t.LevelLaw := by
  have of {q : Bool} {bs : List Block} {s t : State} (m : Move q bs s t) (wind : Block.wind ∉ bs) (policy : Block.policy ∉ bs) :
      s.LevelLaw → t.LevelLaw := fun law => law.of_frame m.onlyChanges wind policy
  induction h with
  | @keep s t h _ banks =>
      have wind : t.wind = s.wind := h .wind (by decide)
      exact fun law => law.congr (banks.active_eq rfl) (fun c => by rw [wind]) (by rw [wind]) (by rw [wind]) (by rw [wind])
  | cabin s c x _ =>
      exact of (Move.withCabin (q := false) (bs := [.cabins]) s c x (by decide) (by simp)) (by decide) (by decide)
  | board | regrant | release | cancel | served | lock => exact fun law => ⟨law.live, law.floor, law.blind⟩
  | endGrant s berth g _ => exact of (Move.endGrant s berth g) (by decide) (by decide)
  | exit s c berth => exact of (Move.sweepExit (q := true) s c berth) (by decide) (by decide)
  | occupancy s c _ => exact of (Move.sweepOccupancy (q := true) s c) (by decide) (by decide)
  | service s c => exact of (Move.sweepService (q := true) s c) (by decide) (by decide)
  | addCause s c src =>
      obtain ⟨sent, wind⟩ := s.sweepAdd_wind c src
      exact fun law => law.of_wind ((Move.sweepAdd (q := true) s c src).onlyChanges .policy (by decide)) ⟨_, sent, wind⟩
  | removeCause s c src =>
      obtain ⟨sent, wind⟩ := s.sweepRemove_wind c src
      exact fun law => law.of_wind ((Move.sweepRemove (q := true) s c src).onlyChanges .policy (by decide)) ⟨_, sent, wind⟩
  | sample s c speed direction => exact State.takeSample_levelLaw c speed direction
  | tick s => exact fun _ => State.tickLevel_levelLaw (State.recomputeWind_live _)
  | fall s =>
      intro law
      unfold State.holdDownFall
      split
      · next falls => exact State.fall_levelLaw law.live falls.2.1
      · exact law
  | channel s c st =>
      intro law
      unfold State.channelStep
      dsimp only
      split
      · exact State.applyFloors_levelLaw (State.recomputeWind_live _)
      · exact law
  | floor s l => exact fun law => State.applyFloors_levelLaw law.live
  | rewind s => exact fun _ => s.windRestart_levelLaw
  | newBank p _ _ _ _ => exact fun _ => State.takeBank_levelLaw _
  | envelope s field v lo hi _ _ _ => exact of (Move.takeEnvelope s _) (by decide) (by decide)
  | trans _ _ ih ik => exact ik ∘ ih

theorem State.enterReset_levelLaw (s : State) : s.enterReset.LevelLaw :=
  State.levelLaw_of_floorLevel rfl (Level.code_le _)

/-- Settles O7: an operation that lowers the level does so only from above both floors, one that changes the channels or the bank
applies the floors, and the staging bank that is written is not the one in force. -/
theorem levelLawIsKept : Obligations.LevelLawIsKept := by
  intro s t apart law run
  refine step_keeps_of_acts (P := fun s => s.BanksApart ∧ s.LevelLaw) (fun _ _ h ⟨apart, law⟩ => ?side)
    (fun _ _ act ⟨apart, law⟩ => ⟨act.banksApart apart, act.levelLaw law⟩) (fun s k ⟨apart, law⟩ => ?write)
    (fun s _ => ⟨s.enterReset_banksApart, s.enterReset_levelLaw⟩) run ⟨apart, law⟩
  case side => exact ⟨State.banksApart_of_frame h (by decide) apart, law.of_frame h (by decide) (by decide)⟩
  case write =>
    exact ⟨State.write_banksApart k apart,
      law.congr (State.setBank_active apart.1 k) (fun _ => rfl) rfl rfl rfl⟩

end Sys2Proof.Machine
end

section
/-! PROOFS. One grant a cabin, the envelope, the bank in force and the stop latch at every step (R71, R136, R166, R173, R174). -/

namespace Sys2Proof.Machine

variable {s t : State}

/-! ## One grant a cabin -/

theorem State.oneGrantEach_iff : s.OneGrantEach ↔ ∀ berth other g g', berth ≠ other → s.board.grants.get berth = some g →
    s.board.grants.get other = some g' → g.cabin ≠ g'.cabin := by
  constructor
  · intro one berth other g g' apart held held'
    cases berth <;> cases other
    · exact absurd rfl apart
    · exact one g g' held held'
    · exact (one g' g held' held).symm
    · exact absurd rfl apart
  · exact fun one g g' held held' => one .a .b g g' nofun held held'

theorem State.oneGrantEach_of_grants (h : t.board.grants = s.board.grants) (one : s.OneGrantEach) : t.OneGrantEach := by
  unfold State.OneGrantEach
  rw [h]
  exact one

/-- A slot may take a grant whose cabin holds none in another slot. -/
theorem State.withGrant_oneGrantEach {berth : Berth} {x : Option Grant} (one : s.OneGrantEach)
    (alone : ∀ g, x = some g → ∀ other g', other ≠ berth → s.board.grants.get other = some g' → g'.cabin ≠ g.cabin) :
    (s.withGrant berth x).OneGrantEach := by
  rw [State.oneGrantEach_iff] at one ⊢
  intro left right g g' apart held held'
  simp only [State.withGrant, State.withBoard_board] at held held'
  by_cases atLeft : left = berth
  · subst atLeft
    rw [PerBerth.get_set_self] at held
    rw [PerBerth.get_set_of_ne _ apart.symm] at held'
    exact (alone g held right g' apart.symm held').symm
  · rw [PerBerth.get_set_of_ne _ atLeft] at held
    by_cases atRight : right = berth
    · subst atRight
      rw [PerBerth.get_set_self] at held'
      exact alone g' held' left g atLeft held
    · rw [PerBerth.get_set_of_ne _ atRight] at held'
      exact one left right g g' apart held held'

/-- The end of a grant empties its slot and leaves the other. -/
theorem State.endGrant_grants (s : State) (berth : Berth) (g : Grant) :
    (s.endGrant berth g).board.grants = s.board.grants.set berth none := by
  have told : Move true grantBlocks (s.withGrant berth none) (((s.withGrant berth none).registerCycle g.cabin g.kind).sweepCycle g.cabin) :=
    .trans ((Move.registerCycle (q := true) _ _ _).up (by decide)) ((Move.sweepCycle _ _).up (by decide))
  rw [State.endGrant, State.recomputeBoarding_grants, told.inputs.grants]
  rfl

theorem State.takeBank_grants (s : State) : s.takeBank.board.grants = s.board.grants := by
  rw [State.takeBank, State.recomputeBoarding_grants]
  have board : s.rimBankChange.windBankChange.board = s.rimBankChange.board :=
    (Move.windBankChange s.rimBankChange).onlyChanges .board (by decide)
  rw [board, State.rimBankChange, State.withRim_board]

theorem State.takeEnvelope_grants (s : State) (e : Envelope) : (s.takeEnvelope e).board.grants = s.board.grants := by
  unfold State.takeEnvelope
  dsimp only
  split
  · rfl
  · exact (Move.finishSweep (q := true) _ _ _).inputs.grants

theorem Act.oneGrantEach (h : Act s t) : s.OneGrantEach → t.OneGrantEach := by
  have of {q : Bool} {bs : List Block} {s t : State} (m : Move q bs s t) (board : Block.board ∉ bs) :
      s.OneGrantEach → t.OneGrantEach := State.oneGrantEach_of_grants (congrArg _ (m.onlyChanges .board board))
  induction h with
  | keep h _ _ => exact State.oneGrantEach_of_grants (congrArg _ (h .board (by decide)))
  | cabin s c x _ => exact of (Move.withCabin (q := false) (bs := [.cabins]) s c x (by decide) (by simp)) (by decide)
  | board s x grants => exact State.oneGrantEach_of_grants grants
  | regrant s berth g g' held cabin =>
      intro one
      refine State.withGrant_oneGrantEach one fun x isNew other h apart heldOther => ?_
      cases isNew
      rw [cabin]
      exact State.oneGrantEach_iff.1 one other berth h g apart heldOther held
  | release s berth g free _ =>
      intro one
      refine State.withGrant_oneGrantEach one fun x isNew other h _ heldOther => ?_
      cases isNew
      exact State.holdsGrant_eq_false.1 free other h heldOther
  | cancel => exact fun _ => nofun
  | endGrant s berth g _ =>
      refine fun one => State.oneGrantEach_of_grants (s := s.withGrant berth none) (s.endGrant_grants berth g) ?_
      exact State.withGrant_oneGrantEach one nofun
  | served | lock => exact id
  | exit s c berth => exact of (Move.sweepExit (q := true) s c berth) (by decide)
  | occupancy s c _ => exact of (Move.sweepOccupancy (q := true) s c) (by decide)
  | service s c => exact of (Move.sweepService (q := true) s c) (by decide)
  | addCause s c src => exact of (Move.sweepAdd (q := true) s c src) (by decide)
  | removeCause s c src => exact of (Move.sweepRemove (q := true) s c src) (by decide)
  | sample s c speed direction => exact of (Move.takeSample (q := true) s c speed direction) (by decide)
  | tick s => exact of (Move.windTick s) (by decide)
  | fall s => exact of (Move.holdDownFall s) (by decide)
  | channel s c st => exact of (Move.channelStep s c st) (by decide)
  | floor s l => exact of (s := s.withWind { s.wind with floor := l }) (Move.applyFloors _) (by decide)
  | rewind s => exact of (Move.windRestart s) (by decide)
  | @newBank s t p _ _ _ h =>
      have notice : t.board = s.board := h .board (by decide)
      exact State.oneGrantEach_of_grants (by rw [State.takeBank_grants, notice])
  | envelope s field v lo hi _ _ _ => exact State.oneGrantEach_of_grants (s.takeEnvelope_grants _)
  | trans _ _ ih ik => exact ik ∘ ih

/-- Settles O8: a slot takes a grant only of a cabin that holds none, and otherwise keeps its grant's cabin or is emptied. -/
theorem oneGrantEachIsKept : Obligations.OneGrantEachIsKept := fun _ _ one run =>
  step_keeps_of_acts (fun _ _ h => State.oneGrantEach_of_grants (congrArg _ (h .board (by decide))))
    (fun _ _ => Act.oneGrantEach) (fun _ _ => id) (fun _ _ => nofun) run one

/-! ## The envelope -/

/-- A value of a field's range, written to it, keeps the envelope in its ranges (R173). -/
theorem Envelope.InRange.write {e : Envelope} {field v lo hi : Nat} (within : e.InRange) (range : envelopeRange field = some (lo, hi))
    (low : lo ≤ v) (high : v ≤ hi) : (e.write field v).InRange := by
  obtain ⟨cabins, capacity, forward, reverse, berths, own, sup, gust⟩ := within
  have node (x : Byte) (at254 : v ≤ 254) (h : x ∈ some (byte v)) : x ≠ 255 := by
    cases h
    intro all
    have := congrArg BitVec.toNat all
    simp only [byte, BitVec.toNat_ofNat, BitVec.reduceToNat] at this
    omega
  have new {lo hi n : Nat} (low : lo ≤ v) (high : v ≤ hi) (h : n ∈ some v) : lo ≤ n ∧ n ≤ hi := by
    cases h
    exact ⟨low, high⟩
  unfold envelopeRange at range
  split at range <;> cases range
  · exact ⟨fun _ => new low high, capacity, forward, reverse, berths, own, sup, gust⟩
  · exact ⟨cabins, fun _ => new low high, forward, reverse, berths, own, sup, gust⟩
  · exact ⟨cabins, capacity, fun _ => new low high, reverse, berths, own, sup, gust⟩
  · exact ⟨cabins, capacity, forward, fun _ h => (new low high h).2, berths, own, sup, gust⟩
  · exact ⟨cabins, capacity, forward, reverse, fun _ => new low high, own, sup, gust⟩
  · exact ⟨cabins, capacity, forward, reverse, berths, fun x => node x high, sup, gust⟩
  · exact ⟨cabins, capacity, forward, reverse, berths, own, fun x => node x high, gust⟩
  · exact ⟨cabins, capacity, forward, reverse, berths, own, sup, fun _ => new low high⟩

theorem State.takeEnvelope_envelope (s : State) (e : Envelope) : (s.takeEnvelope e).envelope = e := by
  unfold State.takeEnvelope
  dsimp only
  split
  · rfl
  · exact (Move.finishSweep (q := true) _ _ _).inputs.envelope

/-- An envelope follows another: it is in its ranges where that was, and is that one where that was LOCKED. -/
def Envelope.Follows (d e : Envelope) : Prop := (d.InRange → e.InRange) ∧ (d.locked = true → e = d)

theorem Envelope.Follows.of_eq {d e : Envelope} (h : e = d) : d.Follows e := h ▸ ⟨id, fun _ => rfl⟩

theorem Envelope.Follows.of_unlocked {d e : Envelope} (unlocked : d.locked = false) (h : d.InRange → e.InRange) : d.Follows e :=
  ⟨h, fun locked => by rw [unlocked] at locked; cases locked⟩

theorem Envelope.Follows.trans {d e f : Envelope} (h : d.Follows e) (k : e.Follows f) : d.Follows f :=
  ⟨k.1 ∘ h.1, fun locked => (k.2 (by rw [h.2 locked]; exact locked)).trans (h.2 locked)⟩

theorem Act.envelope_follows (h : Act s t) : s.envelope.Follows t.envelope := by
  have of {q : Bool} {bs : List Block} {s t : State} (m : Move q bs s t) (envelope : Block.envelope ∉ bs) :
      s.envelope.Follows t.envelope := .of_eq (m.onlyChanges .envelope envelope)
  induction h with
  | keep h _ _ => exact .of_eq (h .envelope (by decide))
  | cabin s c x _ => exact of (Move.withCabin (q := false) (bs := [.cabins]) s c x (by decide) (by simp)) (by decide)
  | board | regrant | release | cancel | served => exact .of_eq rfl
  | endGrant s berth g _ => exact of (Move.endGrant s berth g) (by decide)
  | exit s c berth => exact of (Move.sweepExit (q := true) s c berth) (by decide)
  | occupancy s c _ => exact of (Move.sweepOccupancy (q := true) s c) (by decide)
  | service s c => exact of (Move.sweepService (q := true) s c) (by decide)
  | addCause s c src => exact of (Move.sweepAdd (q := true) s c src) (by decide)
  | removeCause s c src => exact of (Move.sweepRemove (q := true) s c src) (by decide)
  | sample s c speed direction => exact of (Move.takeSample (q := true) s c speed direction) (by decide)
  | tick s => exact of (Move.windTick s) (by decide)
  | fall s => exact of (Move.holdDownFall s) (by decide)
  | channel s c st => exact of (Move.channelStep s c st) (by decide)
  | floor s l => exact of (s := s.withWind { s.wind with floor := l }) (Move.applyFloors _) (by decide)
  | rewind s => exact of (Move.windRestart s) (by decide)
  | @newBank s t p _ _ _ h =>
      exact .of_eq (((Move.takeBank t).onlyChanges .envelope (by decide)).trans (h .envelope (by decide)))
  | envelope s field v lo hi unlocked range within =>
      refine .of_unlocked unlocked fun inRange => ?_
      rw [s.takeEnvelope_envelope]
      exact inRange.write range within.1 within.2
  | lock s unlocked => exact .of_unlocked unlocked fun inRange => ⟨inRange.1, inRange.2, inRange.3, inRange.4, inRange.5,
      inRange.6, inRange.7, inRange.8⟩
  | trans _ _ ih ik => exact ih.trans ik

/-- Settles O12: only an unlocked envelope is written, with a value of the field's range, or locked. -/
theorem envelopeStaysInRange : Obligations.EnvelopeStaysInRange := by
  intro s t inRange run
  have followed : s.envelope.Follows t.envelope :=
    step_keeps_of_acts (P := fun u => s.envelope.Follows u.envelope)
      (fun _ _ h k => k.trans (.of_eq (h .envelope (by decide)))) (fun _ _ act k => k.trans act.envelope_follows)
      (fun _ _ => id) (fun _ => id) run (.of_eq rfl)
  exact ⟨followed.1 inRange, followed.2⟩

/-! ## The bank in force -/

/-- Unless another bank comes into force, acts keep the contents of every bank. -/
theorem Act.banks (h : Act s t) : t.policy.bank1 = s.policy.bank1 ∧ t.policy.bank2 = s.policy.bank2 := by
  have of {q : Bool} {bs : List Block} {s t : State} (m : Move q bs s t) (policy : Block.policy ∉ bs) :
      t.policy.bank1 = s.policy.bank1 ∧ t.policy.bank2 = s.policy.bank2 := by
    have same : t.policy = s.policy := m.onlyChanges .policy policy
    rw [same]
    exact ⟨rfl, rfl⟩
  induction h with
  | keep _ _ banks => exact ⟨banks.bank1, banks.bank2⟩
  | cabin s c x _ => exact of (Move.withCabin (q := false) (bs := [.cabins]) s c x (by decide) (by simp)) (by decide)
  | board | regrant | release | cancel | served | lock => exact ⟨rfl, rfl⟩
  | endGrant s berth g _ => exact of (Move.endGrant s berth g) (by decide)
  | exit s c berth => exact of (Move.sweepExit (q := true) s c berth) (by decide)
  | occupancy s c _ => exact of (Move.sweepOccupancy (q := true) s c) (by decide)
  | service s c => exact of (Move.sweepService (q := true) s c) (by decide)
  | addCause s c src => exact of (Move.sweepAdd (q := true) s c src) (by decide)
  | removeCause s c src => exact of (Move.sweepRemove (q := true) s c src) (by decide)
  | sample s c speed direction => exact of (Move.takeSample (q := true) s c speed direction) (by decide)
  | tick s => exact of (Move.windTick s) (by decide)
  | fall s => exact of (Move.holdDownFall s) (by decide)
  | channel s c st => exact of (Move.channelStep s c st) (by decide)
  | floor s l => exact of (s := s.withWind { s.wind with floor := l }) (Move.applyFloors _) (by decide)
  | rewind s => exact of (Move.windRestart s) (by decide)
  | @newBank s t p bank1 bank2 _ h =>
      have policy : t.policy = p := h .policy (by decide)
      rw [State.takeBank_policy, policy]
      exact ⟨bank1, bank2⟩
  | envelope s field v lo hi _ _ _ => exact of (Move.takeEnvelope s _) (by decide)
  | trans _ _ ih ik => exact ⟨ik.1.trans ih.1, ik.2.trans ih.2⟩

theorem State.active_of_banks (bank1 : t.policy.bank1 = s.policy.bank1) (bank2 : t.policy.bank2 = s.policy.bank2)
    (active : t.policy.active = s.policy.active) : t.active = s.active := by
  unfold State.active State.bank
  rw [active, bank1, bank2]

/-- The banks stay apart, and the bank in force keeps its contents while its number stays. -/
def State.KeepsBank (s t : State) : Prop :=
  s.BanksApart → t.BanksApart ∧ (t.policy.active = s.policy.active → t.active = s.active)

theorem State.keepsBank_of_policy (policy : t.policy = s.policy) : s.KeepsBank t := fun apart =>
  ⟨by rw [State.BanksApart, policy]; exact apart, fun _ => State.active_congr policy⟩

theorem Act.keepsBank (h : Act s t) : s.KeepsBank t := fun apart =>
  ⟨h.banksApart apart, State.active_of_banks h.banks.1 h.banks.2⟩

theorem State.setBank_keepsBank (s : State) (k : Bank) : s.KeepsBank (s.withPolicy (s.policy.setBank s.policy.staging k)) :=
  fun apart => ⟨State.write_banksApart k apart, fun _ => State.setBank_active apart.1 k⟩

/-- After a reset bank 0 is in force, whose contents are fixed. -/
theorem State.enterReset_keepsBank (s : State) : s.KeepsBank s.enterReset := by
  refine fun _ => ⟨s.enterReset_banksApart, fun same => ?_⟩
  have floor : s.policy.active = .floor := same.symm
  unfold State.active
  rw [floor]
  rfl

/-- A side change before and after leaves the banks as they are. -/
theorem State.KeepsBank.of_sides {u v : State} (k : u.KeepsBank v) (before : u.policy = s.policy) (after : t.policy = v.policy) :
    s.KeepsBank t := by
  intro apart
  obtain ⟨still, kept⟩ := k (by rw [State.BanksApart, before]; exact apart)
  refine ⟨by rw [State.BanksApart, after]; exact still, fun same => ?_⟩
  rw [State.active_congr after, kept (by rw [← after, same, before]), State.active_congr before]

theorem Work.keepsBank {clears : Prop} (k : Work clears s t) : s.KeepsBank t := by
  cases k with
  | acts k => exact k.keepsBank
  | write u k before after =>
      exact (u.setBank_keepsBank k).of_sides (before .policy (by decide)) (after .policy (by decide))
  | clear u _ _ before after =>
      have cleared : u.clearLatch.policy = u.policy := (Move.clearLatch u).onlyChanges .policy (by decide)
      exact State.keepsBank_of_policy
        (((after .policy (by decide)).trans cleared).trans (before .policy (by decide)))

theorem exec_keepsBank {c : Instr} (h : exec c s = .next t) : s.KeepsBank t := by
  rcases exec_work c s with ⟨t', u, v, e, pin, did, closed⟩ | e | ⟨t', e, side, -⟩ <;> rw [e] at h <;> cases h
  · exact did.keepsBank.of_sides (pin .policy (by decide)) (closed .policy (by decide))
  · exact s.enterReset_keepsBank
  · exact State.keepsBank_of_policy (side .policy (by decide))

/-- Settles O13: only the staging bank is written, which is apart from the bank in force. -/
theorem bankInForceIsNotWritten : Obligations.BankInForceIsNotWritten := by
  intro s t apart run
  unfold step at run
  split at run
  · cases run
    unfold State.idle
    split
    · exact (Act.advance s 1).keepsBank apart
    · exact ⟨apart, fun _ => rfl⟩
    · exact ⟨apart, fun _ => rfl⟩
  · next c rest _ => exact exec_keepsBank (s := { s with pending := rest }) run apart

/-! ## The stop latch -/

@[simp] theorem State.recomputeCeilings_latch (s : State) : s.recomputeCeilings.governor.latch = s.governor.latch := rfl
@[simp] theorem State.recomputeBoarding_latch (s : State) : s.recomputeBoarding.governor.latch = s.governor.latch := rfl

theorem State.changeLevel_latch (s : State) (l : Level) : (s.changeLevel l).governor.latch = s.governor.latch := by
  rw [State.changeLevel]
  dsimp only
  rw [(Move.refreshBeacons _).inputs.latch, (Move.sweepLevel _).inputs.latch, State.recomputeCeilings_latch, State.postLevel,
    State.post_governor, State.withWind_governor]

theorem State.applyFloors_latch (s : State) : s.applyFloors.governor.latch = s.governor.latch := by
  unfold State.applyFloors State.raiseLevel
  split
  · exact s.changeLevel_latch _
  · rfl

theorem State.tickLevel_latch (s : State) : s.tickLevel.governor.latch = s.governor.latch := by
  have counted (n : Nat) : (s.withWind { s.wind with countdown := n }).governor.latch = s.governor.latch := rfl
  unfold State.tickLevel
  split
  · exact s.changeLevel_latch _
  · unfold State.descend
    split
    · exact counted 0
    · split
      · split
        · exact s.changeLevel_latch _
        · exact counted _
      · exact counted _

theorem State.windTick_latch (s : State) : s.windTick.governor.latch = s.governor.latch := by
  have second : Move true [.wind, .notices] s (channelIndices.foldl State.tickChannel s) := .foldl Move.tickChannel _ _
  rw [State.windTick, State.tickLevel_latch, State.recomputeWind_governor, second.inputs.latch]

theorem State.windRestart_latch (s : State) : s.windRestart.governor.latch = s.governor.latch := by
  rw [State.windRestart, (Move.resendBeacons _).inputs.latch, State.applyFloors_latch, State.recomputeWind_governor,
    State.withWind_governor]

theorem State.windBankChange_latch (s : State) : s.windBankChange.governor.latch = s.governor.latch := by
  have assigned : Move true [.wind, .notices] s (channelIndices.foldl State.reassignChannel s) :=
    .foldl Move.reassignChannel _ _
  have reassigned : s.reassigned.governor.latch = s.governor.latch := by
    rw [State.reassigned, State.recomputeWind_governor, assigned.inputs.latch]
  rw [State.windBankChange_eq, (Move.resendBeacons _).inputs.latch]
  split
  · rw [State.applyFloors_latch, reassigned]
  · rw [State.trimCountdown, State.withWind_governor, reassigned]

theorem State.takeBank_latch (s : State) : s.takeBank.governor.latch = s.governor.latch := by
  rw [State.takeBank, State.recomputeBoarding_latch, State.windBankChange_latch, (Move.rimBankChange s).inputs.latch]

theorem State.endGrant_latch (s : State) (berth : Berth) (g : Grant) :
    (s.endGrant berth g).governor.latch = s.governor.latch := by
  rw [State.endGrant, State.recomputeBoarding_latch, (Move.sweepCycle _ _).inputs.latch, (Move.registerCycle _ _ _).inputs.latch]
  rfl

theorem State.takeEnvelope_latch (s : State) (e : Envelope) : (s.takeEnvelope e).governor.latch = s.governor.latch := by
  unfold State.takeEnvelope
  dsimp only
  split
  · rfl
  · exact (Move.finishSweep (q := true) _ _ _).inputs.latch

/-- Acts keep a SET latch SET. -/
theorem Act.latch (h : Act s t) : s.governor.latch = true → t.governor.latch = true := by
  have of {s t : State} (same : t.governor.latch = s.governor.latch) : s.governor.latch = true → t.governor.latch = true :=
    same.trans
  induction h with
  | keep _ latch _ => exact latch
  | cabin s c x _ =>
      exact of (congrArg Governor.latch (a₁ := (s.withCabin c x).governor) (by simp))
  | board | regrant | release | cancel | served | lock => exact id
  | endGrant s berth g _ => exact of (s.endGrant_latch berth g)
  | exit s c berth => exact of (Move.sweepExit s c berth).inputs.latch
  | occupancy s c _ => exact of (Move.sweepOccupancy s c).inputs.latch
  | service s c => exact of (Move.sweepService s c).inputs.latch
  | addCause s c src => exact of (Move.sweepAdd s c src).inputs.latch
  | removeCause s c src => exact of (Move.sweepRemove s c src).inputs.latch
  | sample s c speed direction => exact of (Move.takeSample s c speed direction).inputs.latch
  | tick s => exact of s.windTick_latch
  | fall s =>
      unfold State.holdDownFall
      split
      · exact of (s.changeLevel_latch _)
      · exact id
  | channel s c st =>
      unfold State.channelStep
      dsimp only
      split
      · refine of ?_
        rw [State.applyFloors_latch, State.recomputeWind_governor, (Move.setChannel s c _).inputs.latch]
      · exact id
  | floor s l => exact of (State.applyFloors_latch _)
  | rewind s => exact of s.windRestart_latch
  | @newBank s t p _ _ _ h =>
      have notice : t.governor = s.governor := h .governor (by decide)
      exact of (by rw [State.takeBank_latch, notice])
  | envelope s field v lo hi _ _ _ => exact of (s.takeEnvelope_latch _)
  | trans _ _ ih ik => exact ik ∘ ih

/-- Work that clears a SET latch was asked to, with STOP_IN inactive. -/
theorem Work.latch {clears : Prop} (k : Work clears s t) (set : s.governor.latch = true) (cleared : t.governor.latch = false) :
    clears ∧ s.stopIn = false := by
  cases k with
  | acts k => rw [k.latch set] at cleared; cases cleared
  | write u k before after =>
      have same : t.governor = s.governor := (after .governor (by decide)).trans (before .governor (by decide))
      rw [same, set] at cleared
      cases cleared
  | clear u asked inactive before after => exact ⟨asked, (before .stopIn (by decide)).symm.trans inactive⟩

/-- Settles O14: a command's work clears a SET latch only if it was asked for, and a reset sets the latch. -/
theorem onlyClearStopClearsTheLatch : Obligations.OnlyClearStopClearsTheLatch := by
  intro c s t set run cleared
  rcases exec_work c s with ⟨t', u, v, e, pin, did, closed⟩ | e | ⟨t', e, -, latch⟩ <;> rw [e] at run <;> cases run
  case inl =>
    have before : u.governor = s.governor := pin .governor (by decide)
    have after : t.governor = v.governor := closed .governor (by decide)
    obtain ⟨⟨running, asked, same⟩, inactive⟩ := did.latch (by rw [before]; exact set) (by rw [← after]; exact cleared)
    subst same
    refine ⟨running, inactive, asked.imp id ?_⟩
    rintro ⟨bytes, badStop, rfl, f, t1, t0, taken, own, kind, payload, sup⟩
    exact ⟨bytes, badStop, f, t1, t0, rfl, taken, own, kind, payload, sup⟩
  case inr.inl => cases cleared
  case inr.inr => rw [latch, set] at cleared; cases cleared

end Sys2Proof.Machine
end

section
/-! PROOFS. The Sweep Scheduler's operations, said once each, and the law of the sweep at every step (R141 to R150, R154). -/

namespace Sys2Proof.Machine

variable {s t : State}

/-! ## Cabin records -/

theorem State.cabin_congr (h : t.cabins = s.cabins) (c : Nat) : t.cabin c = s.cabin c := by
  unfold State.cabin
  rw [h]

/-- A number that names no slot reads as a record at cold reset. -/
theorem State.cabin_of_no_slot {c : Nat} (h : ¬ (1 ≤ c ∧ c ≤ 64)) : s.cabin c = Cabin.reset := by
  unfold State.cabin slot
  split
  · rfl
  · next notZero =>
    have beyond : ¬ c - 1 < 64 := by omega
    simp [beyond]

theorem State.withCabin_cabin_self {c : Nat} (low : 1 ≤ c) (high : c ≤ 64) (x : Cabin) : (s.withCabin c x).cabin c = x := by
  rw [s.withCabin_cabin, if_pos ⟨rfl, low, high⟩]

theorem State.withCabin_cabin_of_ne {c d : Nat} (h : d ≠ c) (x : Cabin) : (s.withCabin c x).cabin d = s.cabin d := by
  rw [s.withCabin_cabin, if_neg fun k => h k.1]

/-- Replacing a record by one with the same mark leaves every mark. -/
theorem State.withCabin_mark {c : Nat} {x : Cabin} (h : x.mark = (s.cabin c).mark) (d : Nat) :
    ((s.withCabin c x).cabin d).mark = (s.cabin d).mark := by
  rw [s.withCabin_cabin]
  split
  · next k => rw [h, k.1]
  · rfl

theorem State.listed_congr (h : ∀ c, (t.cabin c).mark = (s.cabin c).mark) (c : Nat) : t.listed c = s.listed c := by
  unfold State.listed
  rw [h]

theorem State.present_iff {c : Nat} : s.present c = true ↔ 1 ≤ c ∧ c ≤ s.envelope.count := by
  simp [State.present]

theorem State.listed_eq_false {c : Nat} : s.listed c = false ↔ (s.cabin c).mark = none := by
  simp [State.listed]

theorem State.listed_eq_true {c : Nat} : s.listed c = true ↔ (s.cabin c).mark ≠ none := by
  simp [State.listed, Option.isSome_iff_ne_none]

theorem Envelope.InRange.count_le {e : Envelope} (h : e.InRange) : e.count ≤ 64 := by
  unfold Envelope.count
  cases n : e.cabins with
  | none => exact Nat.zero_le _
  | some x => exact (h.cabins x n).2

/-! ## Joining and leaving the list -/

theorem State.appendCabin_sweep (s : State) (c : Nat) :
    (s.appendCabin c).sweep = { s.sweep with list := s.sweep.list ++ [c] } := by
  rw [State.appendCabin, State.withCabin_sweep, State.withSweep_sweep]

theorem State.appendCabin_cabin (s : State) (c d : Nat) :
    (s.appendCabin c).cabin d = if d = c ∧ 1 ≤ c ∧ c ≤ 64 then { s.cabin c with mark := some .pending } else s.cabin d :=
  State.withCabin_cabin _ _ _ _

theorem State.removeCabin_sweep (s : State) (c : Nat) :
    (s.removeCabin c).sweep = { s.sweep with list := s.sweep.list.filter (· ≠ c) } := by
  rw [State.removeCabin, State.withCabin_sweep, State.withSweep_sweep]

theorem State.removeCabin_cabin (s : State) (c d : Nat) :
    (s.removeCabin c).cabin d = if d = c ∧ 1 ≤ c ∧ c ≤ 64 then { s.cabin c with mark := none } else s.cabin d :=
  State.withCabin_cabin _ _ _ _

/-- Cabins that join one after another go to the tail in their order, each PENDING. -/
theorem State.foldl_appendCabin_sweep (l : List Nat) (s : State) :
    (l.foldl State.appendCabin s).sweep = { s.sweep with list := s.sweep.list ++ l } := by
  induction l generalizing s with
  | nil => rw [List.append_nil]; rfl
  | cons c l ih => rw [List.foldl_cons, ih, State.appendCabin_sweep, List.append_assoc, List.singleton_append]

theorem State.foldl_appendCabin_cabin (l : List Nat) (s : State) (d : Nat) :
    (l.foldl State.appendCabin s).cabin d =
      if d ∈ l ∧ 1 ≤ d ∧ d ≤ 64 then { s.cabin d with mark := some .pending } else s.cabin d := by
  induction l generalizing s with
  | nil => rw [if_neg fun h => absurd h.1 List.not_mem_nil]; rfl
  | cons c l ih =>
    rw [List.foldl_cons, ih, State.appendCabin_cabin]
    by_cases slot : 1 ≤ d ∧ d ≤ 64
    · by_cases isHead : d = c
      · subst isHead; simp [slot]
      · simp [slot, isHead]
    · have other : ¬ (d = c ∧ 1 ≤ c ∧ c ≤ 64) := fun h => slot (h.1 ▸ h.2)
      rw [if_neg other, if_neg fun h => slot h.2, if_neg fun h => slot h.2]

theorem State.foldl_zeroPasses_sweep (l : List Nat) (s : State) : (l.foldl State.zeroPasses s).sweep = s.sweep := by
  induction l generalizing s with
  | nil => rfl
  | cons c l ih => rw [List.foldl_cons, ih, State.zeroPasses, State.withCabin_sweep]

theorem State.foldl_zeroPasses_mark (l : List Nat) (s : State) (d : Nat) :
    ((l.foldl State.zeroPasses s).cabin d).mark = (s.cabin d).mark := by
  induction l generalizing s with
  | nil => rfl
  | cons c l ih => rw [List.foldl_cons, ih, State.zeroPasses, State.withCabin_mark (by rfl)]

theorem State.buildList_sweep (s : State) : s.buildList.sweep = s.appendQualifying.sweep :=
  State.foldl_zeroPasses_sweep _ _

theorem State.buildList_mark (s : State) (d : Nat) : (s.buildList.cabin d).mark = (s.appendQualifying.cabin d).mark :=
  State.foldl_zeroPasses_mark _ _ d

theorem State.clearList_sweep (s : State) : s.clearList.sweep = { s.sweep with list := [] } := by
  rw [State.clearList, State.withCabins_sweep, State.withSweep_sweep]

theorem State.clearList_cabin {c : Nat} (low : 1 ≤ c) (high : c ≤ 64) :
    s.clearList.cabin c = { s.cabin c with mark := none, passes := 0 } := by
  have isSlot : c - 1 < 64 := by omega
  have notZero : c ≠ 0 := by omega
  simp [State.clearList, State.cabin, slot, isSlot, notZero]

/-! ## The cabins that join -/

theorem State.joinOrder_perm (s : State) (l : List Nat) : (s.joinOrder l).Perm l := by
  unfold State.joinOrder
  split
  · exact List.perm_insertionSort _ _
  · exact .refl _

theorem State.mem_joining {c : Nat} : c ∈ s.joining ↔
    (1 ≤ c ∧ c ≤ s.envelope.count) ∧ (s.cabin c).qualifies = true ∧ s.listed c = false := by
  rw [State.joining, (s.joinOrder_perm _).mem_iff, List.mem_filter, State.mem_cabinNumbers]
  simp

theorem State.joining_nodup (s : State) : s.joining.Nodup := by
  rw [State.joining, (s.joinOrder_perm _).nodup_iff]
  exact (List.Nodup.map (fun _ _ h => by simpa using h) List.nodup_range).filter _

/-! ## The law of the list -/

/-- The list is empty while no cause holds, holds no cabin twice, and holds exactly the cabins that carry a mark. -/
structure State.ListLaw (s : State) : Prop where
  empty  : s.sweep.caused = false → s.sweep.list = []
  nodup  : s.sweep.list.Nodup
  cabins : ∀ c ∈ s.sweep.list, 1 ≤ c ∧ c ≤ 64
  marks  : ∀ c, 1 ≤ c → c ≤ 64 → (c ∈ s.sweep.list ↔ s.listed c = true)

/-- Grants are held by cabins the register has. -/
def State.GrantsNamed (s : State) : Prop := ∀ berth g, s.board.grants.get berth = some g → 1 ≤ g.cabin ∧ g.cabin ≤ 64

namespace State.ListLaw

theorem congr (law : s.ListLaw) (caused : s.sweep.caused = true → t.sweep.caused = true) (list : t.sweep.list = s.sweep.list)
    (marks : ∀ c, (t.cabin c).mark = (s.cabin c).mark) : t.ListLaw := by
  refine ⟨fun none => ?_, ?_, ?_, fun c low high => ?_⟩
  · rw [list]
    refine law.empty (Bool.eq_false_iff.2 fun some => ?_)
    rw [caused some] at none
    cases none
  · rw [list]; exact law.nodup
  · rw [list]; exact law.cabins
  · rw [list, State.listed_congr marks]; exact law.marks c low high

theorem of_sweep (law : s.ListLaw) (sweep : t.sweep = s.sweep) (marks : ∀ c, (t.cabin c).mark = (s.cabin c).mark) :
    t.ListLaw := law.congr (by rw [sweep]; exact id) (by rw [sweep]) marks

theorem removeCabin (law : s.ListLaw) (c : Nat) : (s.removeCabin c).ListLaw := by
  refine ⟨fun none => ?_, ?_, fun d mem => ?_, fun d low high => ?_⟩ <;> rw [State.removeCabin_sweep] at *
  · rw [law.empty none]; rfl
  · exact law.nodup.filter _
  · exact law.cabins d (List.mem_of_mem_filter mem)
  · unfold State.listed
    rw [State.removeCabin_cabin]
    by_cases same : d = c
    · subst same; simp [low, high]
    · simp [same, law.marks d low high, State.listed]

theorem append (law : s.ListLaw) {l : List Nat} (caused : s.sweep.caused = true) (nodup : l.Nodup)
    (new : ∀ c ∈ l, (1 ≤ c ∧ c ≤ 64) ∧ s.listed c = false) : (l.foldl State.appendCabin s).ListLaw := by
  refine ⟨fun none => ?_, ?_, fun d mem => ?_, fun d low high => ?_⟩ <;> rw [State.foldl_appendCabin_sweep] at *
  · rw [show s.sweep.caused = false from none] at caused
    cases caused
  · refine List.nodup_append'.2 ⟨law.nodup, nodup, fun c old mem => ?_⟩
    obtain ⟨⟨low, high⟩, off⟩ := new c mem
    rw [(law.marks c low high).1 old] at off
    cases off
  · exact (List.mem_append.1 mem).elim (law.cabins d) fun mem => (new d mem).1
  · unfold State.listed
    rw [State.foldl_appendCabin_cabin, List.mem_append, law.marks d low high]
    by_cases mem : d ∈ l
    · simp [mem, low, high]
    · simp [mem, State.listed]

theorem appendCabin (law : s.ListLaw) {c : Nat} (caused : s.sweep.caused = true) (low : 1 ≤ c) (high : c ≤ 64)
    (off : s.listed c = false) : (s.appendCabin c).ListLaw :=
  law.append (l := [c]) caused (List.nodup_singleton c) fun d mem => by
    rw [List.mem_singleton.1 mem]
    exact ⟨⟨low, high⟩, off⟩

theorem appendQualifying (law : s.ListLaw) (wheel : s.envelope.count ≤ 64) (caused : s.sweep.caused = true) :
    s.appendQualifying.ListLaw := by
  refine law.append caused s.joining_nodup fun c mem => ?_
  obtain ⟨⟨low, high⟩, -, off⟩ := State.mem_joining.1 mem
  exact ⟨⟨low, high.trans wheel⟩, off⟩

theorem buildList (law : s.ListLaw) (wheel : s.envelope.count ≤ 64) (caused : s.sweep.caused = true) :
    s.buildList.ListLaw :=
  (law.appendQualifying wheel caused).of_sweep s.buildList_sweep s.buildList_mark

theorem clearList (s : State) : s.clearList.ListLaw := by
  refine ⟨fun _ => ?_, ?_, ?_, fun c low high => ?_⟩ <;> rw [State.clearList_sweep]
  · exact List.nodup_nil
  · exact fun _ mem => absurd mem List.not_mem_nil
  · simp [State.listed, State.clearList_cabin low high]

/-- A listed cabin that moves to the tail stays listed. -/
theorem toTail (law : s.ListLaw) {c : Nat} (low : 1 ≤ c) (high : c ≤ 64) (on : s.listed c = true) : (s.toTail c).ListLaw := by
  have mem := (law.marks c low high).2 on
  refine ⟨fun none => ?_, ?_, fun d tail => ?_, fun d dlow dhigh => ?_⟩ <;>
    simp only [State.toTail, State.withSweep_sweep] at *
  · rw [law.empty none] at mem
    exact absurd mem List.not_mem_nil
  · refine List.nodup_append'.2 ⟨law.nodup.filter _, List.nodup_singleton c, fun d old isC => ?_⟩
    simp [List.mem_singleton.1 isC] at old
  · rcases List.mem_append.1 tail with old | isC
    · exact law.cabins d (List.mem_of_mem_filter old)
    · rw [List.mem_singleton.1 isC]; exact ⟨low, high⟩
  · have same : (s.withSweep { s.sweep with list := s.sweep.list.filter (· ≠ c) ++ [c] }).listed d = s.listed d := rfl
    rw [same, ← law.marks d dlow dhigh]
    by_cases isC : d = c
    · subst isC; simp [mem]
    · simp [isC]

end State.ListLaw

/-! ## The law of the sweep -/

theorem SweepScheduler.caused_iff {w : SweepScheduler} : w.caused = true ↔ w.wind = true ∨ w.close = true ∨ w.operator = true := by
  simp [SweepScheduler.caused, or_assoc]

theorem State.unloadList_isEmpty :
    s.unloadList.isEmpty = true ↔ ∀ c ∈ s.sweep.list, ¬ (1 ≤ c ∧ c ≤ s.envelope.count) := by
  rw [List.isEmpty_iff, State.unloadList, List.filter_eq_nil_iff]
  simp only [State.present_iff]

/-- The law says that the state is the one the causes, the level and the list give, and what the list is. -/
theorem State.sweepLaw_iff : s.SweepLaw ↔ s.sweep.state = s.sweepStateNow ∧ s.ListLaw ∧ s.GrantsNamed := by
  constructor
  · intro law
    have caused : s.sweep.state = .idle ↔ ¬ s.sweep.caused = true := law.idle.trans (not_congr SweepScheduler.caused_iff.symm)
    refine ⟨?_, ⟨fun none => law.empty (caused.2 (by simp [none])), law.nodup, law.cabins, fun c low high => ?_⟩, law.grants⟩
    · unfold State.sweepStateNow
      by_cases none : s.sweep.caused = true
      · have inForce : s.sweep.state ≠ .idle := fun idle => caused.1 idle none
        rw [none]
        by_cases park : s.wind.level = .park
        · simpa [park] using (law.suspended inForce).2 park
        · have notSuspended : s.sweep.state ≠ .suspended := mt (law.suspended inForce).1 park
          have done := (law.done inForce park).trans State.unloadList_isEmpty.symm
          by_cases cleared : s.unloadList.isEmpty = true
          · simpa [park, cleared] using done.2 cleared
          · have notDone : s.sweep.state ≠ .done := mt done.1 cleared
            cases st : s.sweep.state
            · exact absurd st inForce
            · simp [park, cleared]
            · exact absurd st notSuspended
            · exact absurd st notDone
      · simpa [none] using caused.2 none
    · rw [law.marks c low high, State.listed_eq_true]
  · rintro ⟨state, list, grants⟩
    unfold State.sweepStateNow at state
    by_cases none : s.sweep.caused = true
    · have some := SweepScheduler.caused_iff.1 none
      rw [none, Bool.not_true, if_neg Bool.false_ne_true] at state
      have inForce : s.sweep.state ≠ .idle := by rw [state]; split_ifs <;> nofun
      refine ⟨⟨fun idle => absurd idle inForce, fun gone => absurd some gone⟩, fun _ => ?_, fun _ park => ?_,
        fun idle => absurd idle inForce, list.nodup, list.cabins, fun c low high => ?_, grants⟩
      · by_cases park : s.wind.level = .park
        · simp [state, park]
        · rw [state, if_neg park]
          exact ⟨fun h => (by split at h <;> cases h), fun h => absurd h park⟩
      · rw [state, if_neg park, ← State.unloadList_isEmpty]
        split
        · next cleared => simp [cleared]
        · next some => simp [some]
      · rw [list.marks c low high, State.listed_eq_true]
    · have idle : s.sweep.state = .idle := by rw [state]; simp [none]
      refine ⟨⟨fun _ => mt SweepScheduler.caused_iff.2 none, fun _ => idle⟩, fun h => absurd idle h, fun h => absurd idle h,
        fun _ => list.empty (by simpa using none), list.nodup, list.cabins, fun c low high => ?_, grants⟩
      rw [list.marks c low high, State.listed_eq_true]

theorem State.SweepLaw.list (law : s.SweepLaw) : s.ListLaw := (State.sweepLaw_iff.1 law).2.1

/-- The law rests on the scheduler, the marks, the level, the cabins of the wheel and the grants. -/
theorem State.SweepLaw.congr (law : s.SweepLaw) (sweep : t.sweep = s.sweep) (marks : ∀ c, (t.cabin c).mark = (s.cabin c).mark)
    (level : t.wind.level = s.wind.level) (count : t.envelope.count = s.envelope.count) (grants : t.GrantsNamed) :
    t.SweepLaw := by
  obtain ⟨state, list, -⟩ := State.sweepLaw_iff.1 law
  refine State.sweepLaw_iff.2 ⟨?_, list.of_sweep sweep marks, grants⟩
  rw [sweep, state]
  unfold State.sweepStateNow State.unloadList State.present
  rw [sweep, level, count]

theorem State.grantsNamed_of_eq (h : t.board.grants = s.board.grants) (named : s.GrantsNamed) : t.GrantsNamed := by
  unfold State.GrantsNamed
  rw [h]
  exact named

theorem State.SweepLaw.of_frame {bs : List Block} (law : s.SweepLaw) (h : s.OnlyChanges t bs) (sweep : Block.sweep ∉ bs)
    (cabins : Block.cabins ∉ bs) (wind : Block.wind ∉ bs) (envelope : Block.envelope ∉ bs) (board : Block.board ∉ bs) :
    t.SweepLaw :=
  law.congr (h .sweep sweep) (fun c => congrArg Cabin.mark (State.cabin_congr (h .cabins cabins) c))
    (congrArg WindAssessor.level (h .wind wind)) (congrArg Envelope.count (h .envelope envelope))
    (State.grantsNamed_of_eq (congrArg BoardingScreen.grants (h .board board)) law.grants)

/-- The end of the scheduler's part sets the state and nothing else of the scheduler. -/
theorem State.finishSweep_sweep (s before : State) (src : SweepSource) :
    (s.finishSweep before src).sweep = { s.sweep with state := s.sweepStateNow } := by
  unfold State.finishSweep
  dsimp only
  split
  · rw [State.post_sweep, State.withSweep_sweep]
  · rw [State.withSweep_sweep]

theorem State.finishSweep_frame (s before : State) (src : SweepSource) :
    s.OnlyChanges (s.finishSweep before src) [.sweep, .notices] :=
  (Move.finishSweep (q := true) s before src).onlyChanges

theorem State.finishSweep_cabin (s before : State) (src : SweepSource) (c : Nat) :
    (s.finishSweep before src).cabin c = s.cabin c :=
  State.cabin_congr (s.finishSweep_frame before src .cabins (by decide)) c

/-- Whatever an event has made of the list, its end brings the law about. -/
theorem State.ListLaw.finishSweep (list : s.ListLaw) (named : s.GrantsNamed) (before : State) (src : SweepSource) :
    (s.finishSweep before src).SweepLaw := by
  have sweep := s.finishSweep_sweep before src
  have frame := s.finishSweep_frame before src
  have wind : (s.finishSweep before src).wind = s.wind := frame .wind (by decide)
  have envelope : (s.finishSweep before src).envelope = s.envelope := frame .envelope (by decide)
  have board : (s.finishSweep before src).board = s.board := frame .board (by decide)
  refine State.sweepLaw_iff.2 ⟨?_, ?_, State.grantsNamed_of_eq (congrArg _ board) named⟩
  · rw [sweep]
    unfold State.sweepStateNow State.unloadList State.present
    rw [sweep, wind, envelope]
    rfl
  · exact list.congr (by rw [sweep]; exact id) (by rw [sweep]) fun c => by rw [State.finishSweep_cabin]

/-! ## Causes -/

theorem SweepScheduler.setCause_caused (w : SweepScheduler) (c : Cause) : (w.setCause true c).caused = true := by
  cases c <;> simp [SweepScheduler.setCause, SweepScheduler.caused]

theorem SweepScheduler.setCause_list (w : SweepScheduler) (v : Bool) (c : Cause) : (w.setCause v c).list = w.list := by
  cases c <;> rfl

namespace State.ListLaw

theorem addCause (law : s.ListLaw) (wheel : s.envelope.count ≤ 64) (c : Cause) : (s.addCause c).ListLaw := by
  unfold State.addCause
  split
  · exact law
  · have caused : (s.withSweep (s.sweep.setCause true c)).sweep.caused = true := s.sweep.setCause_caused c
    have begun : (s.withSweep (s.sweep.setCause true c)).ListLaw :=
      law.congr (fun _ => caused) (s.sweep.setCause_list true c) fun _ => rfl
    dsimp only
    split
    · exact begun.buildList wheel caused
    · exact begun.appendQualifying wheel caused

theorem removeCause (law : s.ListLaw) (c : Cause) : (s.removeCause c).ListLaw := by
  unfold State.removeCause
  split
  · dsimp only
    split
    · next caused => exact law.congr (fun _ => caused) (s.sweep.setCause_list false c) fun _ => rfl
    · exact clearList _
  · exact law

end State.ListLaw

namespace State.SweepLaw

theorem reportClose (law : s.SweepLaw) (before : SweepScheduler) : (s.reportClose before).SweepLaw := by
  have told : Move true [.wind, .path] s (s.reportClose before) := .reportClose s before
  exact law.congr (told.onlyChanges .sweep (by decide))
    (fun c => congrArg Cabin.mark (State.cabin_congr (told.onlyChanges .cabins (by decide)) c)) told.inputs.level
    (congrArg Envelope.count told.inputs.envelope) (State.grantsNamed_of_eq told.inputs.grants law.grants)

theorem refreshBeacons (law : s.SweepLaw) : s.refreshBeacons.SweepLaw := by
  have told : Move true [.wind, .path] s s.refreshBeacons := .refreshBeacons s
  exact law.congr (told.onlyChanges .sweep (by decide))
    (fun c => congrArg Cabin.mark (State.cabin_congr (told.onlyChanges .cabins (by decide)) c)) told.inputs.level
    (congrArg Envelope.count told.inputs.envelope) (State.grantsNamed_of_eq told.inputs.grants law.grants)

theorem resendBeacons (law : s.SweepLaw) : s.resendBeacons.SweepLaw :=
  refreshBeacons (s := s.withWind { s.wind with sent := { a := none, b := none } })
    (law.congr rfl (fun _ => rfl) rfl rfl law.grants)

/-- A chain of operations on the list, ended by the scheduler. -/
theorem of_list {u : State} (law : s.SweepLaw) (m : Move true [.sweep, .cabins, .notices] s u) (list : u.ListLaw)
    (before : State) (src : SweepSource) : (u.finishSweep before src).SweepLaw :=
  list.finishSweep (State.grantsNamed_of_eq m.inputs.grants law.grants) before src

theorem sweepAdd (law : s.SweepLaw) (wheel : s.envelope.count ≤ 64) (c : Cause) (src : SweepSource) :
    (s.sweepAdd c src).SweepLaw := by
  unfold State.sweepAdd
  split
  · exact law
  · exact (law.of_list ((Move.addCause s c).mono (by decide)) (law.list.addCause wheel c) s src).reportClose _

theorem sweepRemove (law : s.SweepLaw) (c : Cause) (src : SweepSource) : (s.sweepRemove c src).SweepLaw := by
  unfold State.sweepRemove
  split
  · exact (law.of_list ((Move.removeCause s c).mono (by decide)) (law.list.removeCause c) s src).reportClose _
  · exact law

/-! ## Visits and requests -/

theorem setServed (law : s.SweepLaw) (c : Nat) (v : Bool) : (s.setServed c v).SweepLaw := by
  unfold State.setServed
  split
  · exact law
  · exact ⟨law.idle, law.suspended, law.done, law.empty, law.nodup, law.cabins, law.marks, law.grants⟩

end State.SweepLaw

theorem State.ListLaw.setServed (list : s.ListLaw) (c : Nat) (v : Bool) : (s.setServed c v).ListLaw := by
  unfold State.setServed
  split
  · exact list
  · exact list.congr id rfl fun _ => rfl

/-- Marking a listed cabin anew keeps the law of the list. -/
theorem State.ListLaw.remark (list : s.ListLaw) {c : Nat} {x : Cabin} (on : s.listed c = true) (mark : x.mark ≠ none) :
    (s.withCabin c x).ListLaw := by
  refine ⟨by rw [State.withCabin_sweep]; exact list.empty, by rw [State.withCabin_sweep]; exact list.nodup,
    by rw [State.withCabin_sweep]; exact list.cabins, fun d low high => ?_⟩
  rw [State.withCabin_sweep, list.marks d low high, State.listed, State.listed, State.withCabin_cabin]
  split
  · next same =>
    rw [same.1]
    exact iff_of_true on (Option.isSome_iff_ne_none.2 mark)
  · exact Iff.rfl

theorem State.ListLaw.sweepPass (list : s.ListLaw) {c : Nat} (low : 1 ≤ c) (high : c ≤ 64) (on : s.listed c = true)
    (berth : Berth) : (s.sweepPass c berth).ListLaw := by
  have tail := list.toTail low high on
  unfold State.sweepPass
  dsimp only
  split
  · next stuck => exact tail.remark on (by rw [show ((s.toTail c).cabin c).mark = some .stuck from stuck]; nofun)
  · split
    · unfold State.postStuck
      exact (tail.remark on (by nofun)).of_sweep (State.post_sweep ..) fun d => by rw [State.post_cabin]
    · exact tail.remark on (by nofun)

namespace State.SweepLaw

theorem sweepCycle (law : s.SweepLaw) {c : Nat} (low : 1 ≤ c) (high : c ≤ 64) : (s.sweepCycle c).SweepLaw := by
  unfold State.sweepCycle
  dsimp only
  split
  · exact law.setServed c true
  · next inForce =>
    have caused : s.sweep.caused = true := SweepScheduler.caused_iff.2 (not_not.1 (mt law.idle.2 inForce))
    split
    · split
      · exact law.of_list ((Move.setServed s c true).mono (by decide)) (law.list.setServed c true) _ _
      · exact law.of_list ((Move.removeCabin s c).mono (by decide)) (law.list.removeCabin c) _ _
    · next off =>
      split
      · exact law.of_list (.trans ((Move.appendCabin s c).mono (by decide)) ((Move.setServed _ c true).mono (by decide)))
          ((law.list.appendCabin caused low high (by simpa using off)).setServed c true) _ _
      · exact law.of_list ((Move.setServed s c true).mono (by decide)) (law.list.setServed c true) _ _

theorem sweepExit (law : s.SweepLaw) (c : Nat) (berth : Berth) : (s.sweepExit c berth).SweepLaw := by
  unfold State.sweepExit
  dsimp only
  split
  · exact law
  · next visited =>
    have on : s.listed c = true := by simpa using (not_or.1 visited).2
    by_cases slot : 1 ≤ c ∧ c ≤ 64
    · obtain ⟨low, high⟩ := slot
      split
      · split
        · exact law.of_list ((Move.toTail s c).mono (by decide)) (law.list.toTail low high on) _ _
        · exact law.of_list (Move.sweepPass s c berth) (law.list.sweepPass low high on berth) _ _
      · exact law.of_list ((Move.removeCabin s c).mono (by decide)) (law.list.removeCabin c) _ _
    · rw [State.listed, State.cabin_of_no_slot slot] at on
      cases on

theorem sweepOccupancy (law : s.SweepLaw) {c : Nat} (low : 1 ≤ c) (high : c ≤ 64) : (s.sweepOccupancy c).SweepLaw := by
  have leave : ((s.removeCabin c).finishSweep s .cabin).SweepLaw :=
    law.of_list ((Move.removeCabin s c).mono (by decide)) (law.list.removeCabin c) _ _
  unfold State.sweepOccupancy
  dsimp only
  split
  · split
    · exact leave
    · exact law
  · split
    · next joins =>
      simp only [Bool.and_eq_true, Bool.not_eq_true', decide_eq_true_eq] at joins
      obtain ⟨⟨off, -⟩, inForce⟩ := joins
      have caused : s.sweep.caused = true := SweepScheduler.caused_iff.2 (not_not.1 (mt law.idle.2 inForce))
      exact law.of_list ((Move.appendCabin s c).mono (by decide)) (law.list.appendCabin caused low high off) _ _
    · exact law

theorem sweepService (law : s.SweepLaw) (c : Nat) : (s.sweepService c).SweepLaw := by
  unfold State.sweepService
  split
  · exact law.of_list ((Move.removeCabin s c).mono (by decide)) (law.list.removeCabin c) _ _
  · exact law

end State.SweepLaw

/-! ## The level -/

theorem State.sweepLevel_sweepLaw (list : s.ListLaw) (named : s.GrantsNamed) (wheel : s.envelope.count ≤ 64) :
    s.sweepLevel.SweepLaw := by
  unfold State.sweepLevel
  split
  · exact (list.addCause wheel .wind).finishSweep
      (State.grantsNamed_of_eq (Move.addCause (q := true) s .wind).inputs.grants named) _ _
  · exact (list.removeCause .wind).finishSweep
      (State.grantsNamed_of_eq (Move.removeCause (q := true) s .wind).inputs.grants named) _ _

namespace State.SweepLaw

theorem changeLevel (law : s.SweepLaw) (wheel : s.envelope.count ≤ 64) (l : Level) : (s.changeLevel l).SweepLaw := by
  unfold State.changeLevel
  dsimp only
  refine (State.sweepLevel_sweepLaw (law.list.of_sweep ?_ fun c => ?_) ?_ ?_).refreshBeacons
  · rw [State.recomputeCeilings_sweep, State.postLevel, State.post_sweep, State.withWind_sweep]
  · rw [State.cabin_congr (State.recomputeCeilings_cabins _), State.postLevel, State.post_cabin,
      State.cabin_congr (s.withWind_cabins _)]
  · refine State.grantsNamed_of_eq ?_ law.grants
    rw [State.recomputeCeilings_board, State.postLevel, State.post_board, State.withWind_board]
  · rw [State.recomputeCeilings_envelope, State.postLevel, State.post_envelope, State.withWind_envelope]
    exact wheel

theorem applyFloors (law : s.SweepLaw) (wheel : s.envelope.count ≤ 64) : s.applyFloors.SweepLaw := by
  unfold State.applyFloors State.raiseLevel
  split
  · exact law.changeLevel wheel _
  · exact law

/-- Changes of the Wind Assessor that leave the level leave the law. -/
theorem withWind (law : s.SweepLaw) {x : WindAssessor} (level : x.level = s.wind.level) : (s.withWind x).SweepLaw :=
  law.congr rfl (fun _ => rfl) level rfl law.grants

theorem recomputeWind (law : s.SweepLaw) : s.recomputeWind.SweepLaw := law.withWind rfl

theorem of_wind_move (law : s.SweepLaw) (m : Move true [.wind, .notices] s t) : t.SweepLaw :=
  law.congr (m.onlyChanges .sweep (by decide))
    (fun c => congrArg Cabin.mark (State.cabin_congr (m.onlyChanges .cabins (by decide)) c)) m.inputs.level
    (congrArg Envelope.count m.inputs.envelope) (State.grantsNamed_of_eq m.inputs.grants law.grants)

theorem tickLevel (law : s.SweepLaw) (wheel : s.envelope.count ≤ 64) : s.tickLevel.SweepLaw := by
  have counted (n : Nat) : (s.withWind { s.wind with countdown := n }).SweepLaw := law.withWind rfl
  unfold State.tickLevel
  split
  · exact law.changeLevel wheel _
  · unfold State.descend
    split
    · exact counted 0
    · split
      · split
        · exact law.changeLevel wheel _
        · exact counted _
      · exact counted _

theorem windTick (law : s.SweepLaw) (wheel : s.envelope.count ≤ 64) : s.windTick.SweepLaw := by
  have second : Move true [.wind, .notices] s (channelIndices.foldl State.tickChannel s) := .foldl Move.tickChannel _ _
  refine (law.of_wind_move second).recomputeWind.tickLevel ?_
  rw [State.recomputeWind_envelope, second.inputs.envelope]
  exact wheel

theorem windRestart (law : s.SweepLaw) (wheel : s.envelope.count ≤ 64) : s.windRestart.SweepLaw := by
  have warming : (s.withWind { s.wind with channels := Vector.ofFn fun c => (s.wind.channels[c]).restarted }).SweepLaw :=
    law.withWind (by rfl)
  exact (warming.recomputeWind.applyFloors wheel).resendBeacons

theorem trimCountdown (law : s.SweepLaw) : s.trimCountdown.SweepLaw := law.withWind (by rfl)

theorem windBankChange (law : s.SweepLaw) (wheel : s.envelope.count ≤ 64) : s.windBankChange.SweepLaw := by
  have assigned : Move true [.wind, .notices] s (channelIndices.foldl State.reassignChannel s) :=
    .foldl Move.reassignChannel _ _
  have reassigned : s.reassigned.SweepLaw := (law.of_wind_move assigned).recomputeWind
  rw [State.windBankChange_eq]
  split
  · refine (reassigned.applyFloors ?_).resendBeacons
    rw [State.reassigned, State.recomputeWind_envelope, assigned.inputs.envelope]
    exact wheel
  · exact reassigned.trimCountdown.resendBeacons

theorem recomputeBoarding (law : s.SweepLaw) : s.recomputeBoarding.SweepLaw :=
  law.congr rfl (fun _ => rfl) rfl rfl law.grants

theorem takeBank (law : s.SweepLaw) (wheel : s.envelope.count ≤ 64) : s.takeBank.SweepLaw := by
  have placed : Move true [.rim] s s.rimBankChange := .rimBankChange s
  refine (windBankChange (law.of_frame placed.onlyChanges (by decide) (by decide) (by decide) (by decide) (by decide))
    ?_).recomputeBoarding
  rw [placed.inputs.envelope]
  exact wheel

/-! ## Grants and the envelope -/

theorem withGrant (law : s.SweepLaw) {berth : Berth} {x : Option Grant} (named : ∀ g, x = some g → 1 ≤ g.cabin ∧ g.cabin ≤ 64) :
    (s.withGrant berth x).SweepLaw := by
  refine law.congr rfl (fun _ => rfl) rfl rfl fun other g held => ?_
  simp only [State.withGrant, State.withBoard_board] at held
  by_cases same : other = berth
  · subst same
    rw [PerBerth.get_set_self] at held
    exact named g held
  · rw [PerBerth.get_set_of_ne _ same] at held
    exact law.grants other g held

theorem withCabin (law : s.SweepLaw) {c : Nat} {x : Cabin} (mark : x.mark = (s.cabin c).mark) : (s.withCabin c x).SweepLaw :=
  law.congr (s.withCabin_sweep c x) (State.withCabin_mark mark) (by rw [State.withCabin_wind]) (by rw [State.withCabin_envelope])
    (State.grantsNamed_of_eq (by rw [State.withCabin_board]) law.grants)

theorem registerCycle (law : s.SweepLaw) (c : Nat) (k : GrantKind) : (s.registerCycle c k).SweepLaw := by
  have told (u : State) (law : u.SweepLaw) : (u.postCabin c .cycle).SweepLaw :=
    law.of_frame (State.post_frame _ _ _ _ _ _ _ _) (by decide) (by decide) (by decide) (by decide) (by decide)
  refine told _ ?_
  split
  · exact law.withCabin (by rfl)
  · exact law

theorem endGrant (law : s.SweepLaw) {berth : Berth} {g : Grant} (held : s.board.grants.get berth = some g) :
    (s.endGrant berth g).SweepLaw := by
  obtain ⟨low, high⟩ := law.grants berth g held
  exact (((law.withGrant fun _ empty => (by cases empty)).registerCycle _ _).sweepCycle low high).recomputeBoarding

theorem takeEnvelope (law : s.SweepLaw) (e : Envelope) : (s.takeEnvelope e).SweepLaw := by
  unfold State.takeEnvelope
  dsimp only
  split
  · next same => exact law.congr rfl (fun _ => rfl) rfl same law.grants
  · exact State.ListLaw.finishSweep (s := (s.withEnvelope e).recomputeBoarding) (law.list.of_sweep rfl fun _ => rfl) law.grants _ _

end State.SweepLaw

/-! ## The law at every step -/

theorem Act.sweepLaw (h : Act s t) : s.envelope.InRange → s.SweepLaw → t.SweepLaw := by
  induction h with
  | keep h _ _ =>
      exact fun _ law => law.of_frame h (by decide) (by decide) (by decide) (by decide) (by decide)
  | cabin s c x mark => exact fun _ law => law.withCabin mark
  | board s x grants => exact fun _ law => law.congr rfl (fun _ => rfl) rfl rfl (State.grantsNamed_of_eq grants law.grants)
  | regrant s berth g g' held cabin =>
      refine fun _ law => law.withGrant fun x isNew => ?_
      cases isNew
      rw [cabin]
      exact law.grants berth g held
  | release s berth g _ present =>
      refine fun inRange law => law.withGrant fun x isNew => ?_
      cases isNew
      obtain ⟨low, high⟩ := State.present_iff.1 present
      exact ⟨low, high.trans inRange.count_le⟩
  | cancel => exact fun _ law => law.congr rfl (fun _ => rfl) rfl rfl fun berth g held => by cases berth <;> cases held
  | endGrant s berth g held => exact fun _ law => law.endGrant held
  | served s x =>
      exact fun _ law => ⟨law.idle, law.suspended, law.done, law.empty, law.nodup, law.cabins, law.marks, law.grants⟩
  | exit s c berth => exact fun _ law => law.sweepExit c berth
  | occupancy s c present =>
      intro inRange law
      obtain ⟨low, high⟩ := State.present_iff.1 present
      exact law.sweepOccupancy low (high.trans inRange.count_le)
  | service s c => exact fun _ law => law.sweepService c
  | addCause s c src => exact fun inRange law => law.sweepAdd inRange.count_le c src
  | removeCause s c src => exact fun _ law => law.sweepRemove c src
  | sample s c speed direction => exact fun _ law => law.of_wind_move (.takeSample s c speed direction)
  | tick s => exact fun inRange law => law.windTick inRange.count_le
  | fall s =>
      intro inRange law
      unfold State.holdDownFall
      split
      · exact law.changeLevel inRange.count_le _
      · exact law
  | channel s c st =>
      intro inRange law
      unfold State.channelStep
      dsimp only
      split
      · have set : Move true [.wind, .notices] s (s.setChannel c (s.wind.channels[c]).closeSecond) := .setChannel s c _
        refine (law.of_wind_move set).recomputeWind.applyFloors ?_
        rw [State.recomputeWind_envelope, set.inputs.envelope]
        exact inRange.count_le
      · exact law
  | floor s l => exact fun inRange law => (law.withWind (by rfl)).applyFloors inRange.count_le
  | rewind s => exact fun inRange law => law.windRestart inRange.count_le
  | @newBank s t p _ _ _ h =>
      intro inRange law
      have swapped : (s.withPolicy p).SweepLaw := law.congr rfl (fun _ => rfl) rfl rfl law.grants
      refine (swapped.of_frame h (by decide) (by decide) (by decide) (by decide) (by decide)).takeBank ?_
      rw [show t.envelope = s.envelope from h .envelope (by decide)]
      exact inRange.count_le
  | envelope s field v lo hi _ _ _ => exact fun _ law => law.takeEnvelope _
  | lock s _ => exact fun _ law => law.congr rfl (fun _ => rfl) rfl rfl law.grants
  | @trans s t u h k ih ik => exact fun inRange law => ik (h.envelope_follows.1 inRange) (ih inRange law)

theorem State.cabin_of_replicate {x : Cabin} (h : s.cabins = Vector.replicate 64 x) {c : Nat} (low : 1 ≤ c) (high : c ≤ 64) :
    s.cabin c = x := by
  have isSlot : c - 1 < 64 := by omega
  have notZero : c ≠ 0 := by omega
  simp [State.cabin, slot, h, isSlot, notZero]

theorem State.enterReset_sweepLaw (s : State) : s.enterReset.SweepLaw := by
  refine State.sweepLaw_iff.2 ⟨rfl, ⟨fun _ => rfl, List.nodup_nil, nofun, fun c low high => ?_⟩, fun berth g held => ?_⟩
  · rw [State.listed_eq_true, State.cabin_of_replicate (x := Cabin.reset) rfl low high]
    exact iff_of_false List.not_mem_nil fun marked => marked rfl
  · cases berth <;> cases held

/-- Settles O10: every operation that touches the list ends with the scheduler's state set anew, and those that touch the level, the
causes or the wheel's cabins do too. -/
theorem sweepLawIsKept : Obligations.SweepLawIsKept := by
  intro s t inRange law run
  refine (step_keeps_of_acts (P := fun u => u.envelope.InRange ∧ u.SweepLaw) (fun s t h ⟨inRange, law⟩ => ⟨?_, ?_⟩)
    (fun s t act ⟨inRange, law⟩ => ⟨act.envelope_follows.1 inRange, act.sweepLaw inRange law⟩)
    (fun s k ⟨inRange, law⟩ => ⟨inRange, law.congr rfl (fun _ => rfl) rfl rfl law.grants⟩)
    (fun s ⟨inRange, _⟩ => ⟨inRange, s.enterReset_sweepLaw⟩) run ⟨inRange, law⟩).2
  · have envelope : t.envelope = s.envelope := h .envelope (by decide)
    rw [envelope]
    exact inRange
  · exact law.of_frame h (by decide) (by decide) (by decide) (by decide) (by decide)

end Sys2Proof.Machine
end

section
/-! PROOFS. The close of an event feeds the transmitters (R14 to R17), the state after reset, what a part not at work and a full
part queue shut out (R13, R137, R187), and the passing of a millisecond (R178). -/

namespace Sys2Proof.Machine

variable {s t : State}

/-! ## Building NOTICE frames -/

/-- R14 builds no further NOTICE frame: no record waits, or the part queue has no room for its frame. -/
def State.Built (s : State) : Prop := s.notices.queue = [] ∨ noticeRoom ≤ s.path.part.length

theorem State.buildNotice_of_built (h : s.Built) : s.buildNotice = s :=
  if_neg fun ⟨waits, room⟩ => h.elim waits fun full => absurd full (Nat.not_le.2 room)

theorem State.buildNotice_of_waiting (waits : s.notices.queue ≠ []) (room : s.path.part.length < noticeRoom) :
    s.buildNotice = (s.enqueuePart s.noticeDest codeNotice ((s.notices.queue.take 4).flatMap fun q => q.note.bytes)).withNotices
      (s.notices.giveUp s.stamp) := if_pos ⟨waits, room⟩

/-- A build adds a frame, unless nothing is left to build. -/
theorem State.buildNotice_adds (s : State) : s.buildNotice.Built ∨ s.path.part.length < s.buildNotice.path.part.length := by
  by_cases waits : s.notices.queue = []
  · rw [State.buildNotice_of_built (.inl waits)]
    exact .inl (.inl waits)
  · by_cases room : s.path.part.length < noticeRoom
    · rw [State.buildNotice_of_waiting waits room]
      right
      simp [State.enqueuePart]
    · rw [State.buildNotice_of_built (.inr (Nat.not_lt.1 room))]
      exact .inl (.inr (Nat.not_lt.1 room))

theorem State.buildNotice_progress {n : Nat} (h : s.Built ∨ n ≤ s.path.part.length) :
    s.buildNotice.Built ∨ n + 1 ≤ s.buildNotice.path.part.length := by
  rcases h with built | long
  · rw [State.buildNotice_of_built built]
    exact .inl built
  · exact s.buildNotice_adds.imp id (Nat.lt_of_le_of_lt long)

theorem State.buildNotices_of_built (h : s.Built) : s.buildNotices = s := by
  unfold State.buildNotices
  simp only [State.buildNotice_of_built h]

/-- Six builds are enough: each adds a frame to a part queue below six. -/
theorem State.buildNotices_built (s : State) : s.buildNotices.Built :=
  have six := State.buildNotice_progress (State.buildNotice_progress (State.buildNotice_progress (State.buildNotice_progress
    (State.buildNotice_progress (State.buildNotice_progress (s := s) (.inr (Nat.zero_le _)))))))
  six.elim id .inr

/-! ## The arbiters -/

theorem State.chooseSupervisor_of_busy {f : Frame} (h : s.path.supTx = some f) : s.chooseSupervisor = s := by
  unfold State.chooseSupervisor
  rw [h]

theorem State.chooseSupervisor_of_empty (sup : s.path.supForward = []) (part : s.path.part = []) : s.chooseSupervisor = s := by
  unfold State.chooseSupervisor
  rw [sup, part]
  split <;> rfl

theorem State.chooseField_of_busy {f : Frame} (h : s.path.fldTx = some f) : s.chooseField = s := by
  unfold State.chooseField
  rw [h]

theorem State.chooseField_of_empty (origin : s.path.origin = []) (fld : s.path.fldForward = []) : s.chooseField = s := by
  unfold State.chooseField
  rw [origin, fld]
  split <;> rfl

/-- A supervisor transmitter that idles after its choice found both its queues empty. -/
theorem State.chooseSupervisor_idle (h : s.chooseSupervisor.path.supTx = none) :
    s.path.supForward = [] ∧ s.path.part = [] := by
  unfold State.chooseSupervisor at h
  split at h
  · next busy => rw [busy] at h; cases h
  · split at h
    · cases h
    · cases h
    · split at h <;> cases h
    · exact ⟨‹_›, ‹_›⟩

theorem State.chooseField_idle (h : s.chooseField.path.fldTx = none) :
    s.chooseField.path.origin = [] ∧ s.chooseField.path.fldForward = [] := by
  unfold State.chooseField at h ⊢
  split
  · next busy => rw [busy] at h; cases (busy.symm.trans h)
  · next idle =>
    rw [idle] at h
    split
    · next first => rw [first] at h; cases h
    · next empty =>
      rw [empty] at h
      split
      · next first => rw [first] at h; cases h
      · next none => exact ⟨empty, none⟩

/-- A choice at the field port leaves the queues and the transmitter of the supervisor port. -/
theorem State.chooseField_supervisor (s : State) : s.chooseField.path.supTx = s.path.supTx ∧
    s.chooseField.path.supForward = s.path.supForward ∧ s.chooseField.path.part = s.path.part ∧
    s.chooseField.notices = s.notices := by
  unfold State.chooseField
  split
  · exact ⟨rfl, rfl, rfl, rfl⟩
  · split
    · exact ⟨rfl, rfl, rfl, rfl⟩
    · split <;> exact ⟨rfl, rfl, rfl, rfl⟩

theorem State.buildNotice_supervisor (s : State) : s.buildNotice.path.supTx = s.path.supTx ∧
    s.buildNotice.path.supForward = s.path.supForward := by
  unfold State.buildNotice
  split <;> exact ⟨rfl, rfl⟩

theorem State.buildNotices_supTx (s : State) : s.buildNotices.path.supTx = s.path.supTx := by
  unfold State.buildNotices
  simp only [(State.buildNotice_supervisor _).1]

/-! ## Settled transmitters -/

/-- Whatever an event has queued, the part settles with its transmitters fed. -/
theorem State.settle_fed (s : State) : s.settle.Fed := by
  have built : s.chooseSupervisor.buildNotices.Built := State.buildNotices_built _
  have rebuilt : s.chooseSupervisor.buildNotices.chooseSupervisor.buildNotices.Built := State.buildNotices_built _
  unfold State.settle
  obtain ⟨supTx, supForward, part, notices⟩ :=
    s.chooseSupervisor.buildNotices.chooseSupervisor.buildNotices.chooseField_supervisor
  refine ⟨fun _ idle => ?_, fun _ idle => State.chooseField_idle idle, fun _ => ?_⟩
  · rw [supTx, State.buildNotices_supTx] at idle
    obtain ⟨noForward, noPart⟩ := State.chooseSupervisor_idle idle
    have noRecord : s.chooseSupervisor.buildNotices.notices.queue = [] :=
      built.resolve_right (by rw [noPart]; decide)
    rw [supForward, part, State.chooseSupervisor_of_empty noForward noPart, State.buildNotices_of_built (.inl noRecord)]
    exact ⟨noForward, noPart⟩
  · rw [notices, part]
    exact rebuilt

theorem State.close_fed (s : State) : s.close.Fed := s.releaseAtClose.settle_fed

/-- A part whose transmitters are fed has nothing to settle. -/
theorem State.settle_of_fed (powered : s.phase ≠ .unpowered) (fed : s.Fed) : s.settle = s := by
  have supervisor : s.chooseSupervisor = s := by
    cases busy : s.path.supTx with
    | some f => exact State.chooseSupervisor_of_busy busy
    | none => exact State.chooseSupervisor_of_empty (fed.supervisor powered busy).1 (fed.supervisor powered busy).2
  have field : s.chooseField = s := by
    cases busy : s.path.fldTx with
    | some f => exact State.chooseField_of_busy busy
    | none => exact State.chooseField_of_empty (fed.field powered busy).1 (fed.field powered busy).2
  have built : s.buildNotices = s := State.buildNotices_of_built (fed.notices powered)
  rw [State.settle, supervisor, built, supervisor, built, field]

theorem State.releaseAtClose_of_between (h : s.notices.Between) : s.releaseAtClose = s := by
  obtain ⟨restarting, atClose⟩ := h
  have same : ({ s.notices with restarting := false, atClose := [] } : NoticeUnit) = s.notices := by
    rw [← restarting, ← atClose]
  unfold State.releaseAtClose
  rw [same, atClose]
  rfl

theorem State.close_of_settled (powered : s.phase ≠ .unpowered) (fed : s.Fed) (between : s.notices.Between) : s.close = s := by
  rw [State.close, State.releaseAtClose_of_between between, State.settle_of_fed powered fed]

theorem State.fed_of_eq (path : t.path = s.path) (notices : t.notices.queue = s.notices.queue)
    (power : t.phase ≠ .unpowered → s.phase ≠ .unpowered) (fed : s.Fed) : t.Fed := by
  refine ⟨fun on => ?_, fun on => ?_, fun on => ?_⟩ <;> rw [path]
  · exact fed.supervisor (power on)
  · exact fed.field (power on)
  · rw [notices]; exact fed.notices (power on)

theorem State.leaveReset_fed (high : Bool) (fed : s.Fed) : (s.leaveReset high).Fed := by
  by_cases held : s.phase = .heldInReset
  · rw [State.leaveReset_of_held held]
    exact State.fed_of_eq (s := s) rfl rfl (fun _ => by rw [held]; nofun) fed
  · rw [State.leaveReset_of_not_held held]
    exact fed

/-- Settles O11: whatever a body does, the close feeds the transmitters; a reset starts from empty queues, and a part without power
has no transmitter to feed. -/
theorem transmittersStayFed : Obligations.TransmittersStayFed := by
  intro s t fed run
  have command (c : Instr) (s t : State) : exec c s = .next t → s.Fed → t.Fed :=
    exec_keeps (Q := fun _ => True) (fun s _ => s.close_fed) (fun _ _ _ _ => trivial) (fun _ _ _ _ _ => trivial)
      (fun s _ => State.fed_of_eq (s := s) rfl rfl id) (fun _ _ => ⟨fun _ _ => ⟨rfl, rfl⟩, fun _ _ => ⟨rfl, rfl⟩, fun _ => .inl rfl⟩)
      (fun _ high => State.leaveReset_fed high)
      (fun _ _ => ⟨fun on => absurd rfl on, fun on => absurd rfl on, fun on => absurd rfl on⟩)
  exact step_keeps (fun s _ => State.fed_of_eq (s := s) rfl rfl id) command (fun s => State.fed_of_eq (s := s) rfl rfl id) run fed

/-! ## The state after reset -/

/-- Settles O15: each invariant at the empty tables, queues and rings of the state after reset, with the latch SET. -/
theorem resetMeetsTheInvariants : Obligations.ResetMeetsTheInvariants := by
  refine ⟨⟨FramePath.reset_bounded, NoticeUnit.reset_sound, rfl, rfl⟩, ?governed, ?level, nofun, ?rings, ?fed, ?envelope, ?sweep⟩
  case governed =>
    exact ⟨⟨nofun, .inl rfl⟩, ⟨rfl, rfl, rfl⟩, (State.forwardNow_of_latched rfl).symm, (State.reverseNow_of_latched rfl).symm,
      fun _ => rfl⟩
  case level => exact State.levelLaw_of_floorLevel rfl (Level.code_le _)
  case rings =>
    intro c
    have unassigned : State.reset.wind.channels[c] = Channel.unassigned := by simp [State.reset, WindAssessor.reset]
    rw [unassigned]
    exact Channel.unassigned_ringsAgree
  case fed => exact ⟨fun _ _ => ⟨rfl, rfl⟩, fun _ _ => ⟨rfl, rfl⟩, fun _ => .inl rfl⟩
  case envelope => exact ⟨nofun, nofun, nofun, nofun, nofun, nofun, nofun, nofun⟩
  case sweep =>
    refine State.sweepLaw_iff.2 ⟨rfl, ⟨fun _ => rfl, List.nodup_nil, nofun, fun c low high => ?_⟩, fun berth g held => ?_⟩
    · rw [State.listed_eq_true, State.cabin_of_replicate (x := Cabin.reset) rfl low high]
      exact iff_of_false List.not_mem_nil fun marked => marked rfl
    · cases berth <;> cases held

/-! ## Commands that are shut out -/

/-- A part not at work takes none but the pins, the resets and the loss of power. -/
theorem exec_of_not_running (c : Instr) (idle : s.phase ≠ .running) (cold : ∀ cause, c ≠ .coldReset cause)
    (leave : ∀ m, c ≠ .endOfColdReset m) (assert : c ≠ .stopInAssertion) (release : c ≠ .stopInRelease)
    (power : c ≠ .powerLoss) : exec c s = .next s := by
  have event (f : State → State) : (.next (s.takeEvent f) : Host.Outcome State Fault Refusal) = .next s :=
    congrArg _ (State.takeEvent_idle idle f)
  cases c with
  | coldReset cause => exact absurd rfl (cold cause)
  | endOfColdReset m => exact absurd rfl (leave m)
  | stopInAssertion => exact absurd rfl assert
  | stopInRelease => exact absurd rfl release
  | powerLoss => exact absurd rfl power
  | frameArrival | transmitStart | transmitCompletion | noticeFrameBuild | quarterTick | rideSecondTick | holdDownExpiry
  | channelStale | channelLive | encoderWatchExpiry | stalenessTimerExpiry | flushTimerExpiry | commitTimerExpiry
  | commitWalkCompletion | swap | deferredWarmRestart => exact event _
  | _ => exact (exec_request rfl rfl s).trans (event _)

/-- A command with a requester is a request. -/
theorem requestOf_of_requester {c : Instr} (h : c.requester ≠ none) :
    ∃ r args who, requestOf c = some (r, args) ∧ c.requester = some who := by
  obtain ⟨who, requester⟩ := Option.ne_none_iff_exists'.1 h
  have request : ∃ x, requestOf c = some x := by
    cases c <;> first | exact ⟨_, rfl⟩ | cases requester
  obtain ⟨⟨r, args⟩, request⟩ := request
  exact ⟨r, args, who, request, requester⟩

/-- Settles O4: an event of a part not at work is not taken, and a request that finds the part queue full leaves a settled part as
it was. -/
theorem commandsTheStateShutsOut : Obligations.CommandsTheStateShutsOut := by
  refine ⟨fun c s idle cold leave assert release power => exec_of_not_running c idle cold leave assert release power,
    fun s idle => ⟨?_, ?_⟩, fun c s request running full fed between => ?_⟩
  · exact congrArg Host.Outcome.next (State.takeEvent_idle (s := s.withStopIn true) idle _)
  · exact congrArg Host.Outcome.next (State.takeEvent_idle (s := s.withStopIn false) idle _)
  · obtain ⟨r, args, who, listed, requester⟩ := requestOf_of_requester request
    have powered : s.phase ≠ .unpowered := by rw [running]; nofun
    rw [exec_request listed requester, State.takeEvent_running running,
      State.answer_full (Nat.not_lt.2 (show partRoom ≤ _ from full)), State.close_of_settled powered fed between]

/-! ## A millisecond passes -/

theorem mem_dueIf {b : Bool} {c d : Instr} : c ∈ dueIf b d ↔ b = true ∧ c = d := by
  unfold dueIf
  split <;> simp [*]

theorem mem_driveIndices (d : DriveIx) : d ∈ driveIndices := by
  revert d
  decide

theorem State.mem_due {c : Instr} : c ∈ s.due ↔
    (s.rim.watch = some 0 ∧ c = .encoderWatchExpiry) ∨ (∃ d, (s.drive d).stale = some 0 ∧ c = .stalenessTimerExpiry d) ∨
      (s.notices.flush = some 0 ∧ c = .flushTimerExpiry) ∨ (s.policy.timer = some 0 ∧ c = .commitTimerExpiry) ∨
      (s.walkDue = true ∧ c = .commitWalkCompletion s.policy.walk) ∨ c ∈ s.ticksDue := by
  simp only [State.due, List.mem_append, mem_dueIf, List.mem_map, List.mem_filter, State.staleDue, mem_driveIndices, true_and,
    decide_eq_true_eq, eq_comm (a := c), or_assoc]

theorem State.mem_ticksDue {c : Instr} : c ∈ s.ticksDue ↔ 250 ≤ s.clock.sinceQuarter ∧
    (c = .quarterTick ∨ s.clock.quarters = 3 ∧ c = .rideSecondTick (Config.clockFirst s.clock.now)) := by
  unfold State.ticksDue
  split
  · next early => simp [Nat.not_le.2 (show _ < 250 from early)]
  · next due => simp [Nat.not_lt.1 (show ¬ _ < 250 from due), mem_dueIf]

/-- A running timer that stands at 0 after a millisecond had at most one left. -/
theorem timer_runs_out {x : Option Nat} : x.map (· - 1) = some 0 ↔ ∃ ms, x = some ms ∧ ms ≤ 1 := by
  cases x <;> simp [Nat.sub_eq_zero_iff_le]

theorem State.advance_drive (s : State) (ms : Nat) (d : DriveIx) :
    (s.advance ms).drive d = { s.drive d with stale := (s.drive d).stale.map (· - ms) } := by
  simp [State.advance, State.drive]

/-- Settles O3: what is queued is what `due` finds after the millisecond, read off by its parts. -/
theorem idlePassesAMillisecond : Obligations.IdlePassesAMillisecond := by
  intro s none
  refine ⟨fun idle => ?_, fun running => ?_⟩
  · unfold step State.idle
    rw [none]
    cases phase : s.phase
    · exact absurd phase idle
    · rfl
    · rfl
  · refine ⟨{ s.advance 1 with pending := (s.advance 1).due }, ?_, ?_, rfl, rfl, rfl, rfl, rfl, s.advance_drive 1, ?_, ?_, ?_, ?_,
      ?_, ?_, ?_⟩
    · unfold step State.idle
      rw [none, running]
      rfl
    · exact fun x hx => by cases x <;> first | (exfalso; exact hx (by decide)) | rfl
    · simp [State.mem_due, State.mem_ticksDue, State.advance]
    · simp [State.mem_due, State.mem_ticksDue, State.advance]
    · rw [← timer_runs_out]
      simp [State.mem_due, State.mem_ticksDue, State.advance]
    · intro d
      rw [← timer_runs_out]
      simp [State.mem_due, State.mem_ticksDue, State.advance_drive]
    · rw [← timer_runs_out]
      simp [State.mem_due, State.mem_ticksDue, State.advance]
    · rw [← timer_runs_out]
      simp [State.mem_due, State.mem_ticksDue, State.advance]
    · intro walking aged
      refine State.mem_due.2 (.inr (.inr (.inr (.inr (.inl ⟨?_, rfl⟩)))))
      have within : walkTime s.policy.walk ≤ 20 := by unfold walkTime walkLimit; omega
      unfold State.walkDue
      rw [if_pos (show (s.advance 1).policy.commit = .walking from walking)]
      exact decide_eq_true (within.trans (show 20 ≤ s.policy.walkAge + 1 by omega))

end Sys2Proof.Machine
end

section
/-! PROOFS. Requests with a reply of their own: the clock, the status and the directory, the envelope, the stop latch; and the resets
and the loss of power (R135 to R137, R173 to R180, R187). -/

namespace Sys2Proof.Machine

variable {s t : State}

/-! ## Answered requests -/

/-- A request at a part at work with room: the state it leaves, its reply, and the close (R13, R176). -/
theorem exec_replied {c : Instr} {r : RequestCode} {args : List Byte} {who : Requester} {u : State} {o : ReplyOutcome}
    {data : List Byte} (listed : requestOf c = some (r, args)) (requester : c.requester = some who) (takes : s.Takes)
    (did : s.handleListed r args = (u, { outcome := o, data := data })) : exec c s = .next (u.replied who o data).close := by
  rw [exec_request_takes listed requester takes, did]
  rfl

/-! ## The clock -/

/-- Settles O39: both bodies are their one range test. -/
theorem clockRequestsSetTheClock : Obligations.ClockRequestsSetTheClock := by
  intro who x y z s takes
  have enabled : decide (z.toNat = 1) = decide (z = 1) := by
    rw [decide_eq_decide]
    exact ⟨fun h => BitVec.eq_of_toNat_eq h, fun h => by rw [h]; rfl⟩
  refine ⟨fun ranged => exec_replied rfl rfl takes (if_pos ranged), fun out => exec_replied rfl rfl takes (if_neg out),
    fun ranged => ?_, fun out => exec_replied rfl rfl takes (if_neg out)⟩
  rw [← enabled]
  exact exec_replied rfl rfl takes (if_pos ranged)

/-! ## The status and the directory -/

/-- Settles O50: both are read off the state, which they leave. -/
theorem statusAndDirectoryAreRead : Obligations.StatusAndDirectoryAreRead := fun _ _ _ takes =>
  ⟨exec_replied rfl rfl takes rfl, fun known => exec_replied rfl rfl takes (if_neg (Nat.not_lt.2 known)),
    fun unknown => exec_replied rfl rfl takes (if_pos unknown)⟩

/-! ## The envelope -/

theorem State.inFlight_eq_false : s.inFlight = false ↔ s.policy.commit = .idle := by simp [State.inFlight]
theorem State.inFlight_eq_true : s.inFlight = true ↔ s.policy.commit ≠ .idle := by simp [State.inFlight]

theorem rimHoldFor_eq_true {m : Mode} {f v : Nat} : rimHoldFor m f v = true ↔ m = .screen ∧ f = 0 ∧ v = 0 := by
  simp [rimHoldFor, and_assoc]

theorem State.recomputeBoarding_conditions (s : State) : s.recomputeBoarding.ConditionsAgree := ⟨rfl, rfl, rfl⟩

theorem State.recomputeCeilings_ceilings (s : State) : s.recomputeCeilings.CeilingsAgree := ⟨rfl, rfl, fun _ => rfl⟩

theorem State.recomputeBoarding_ceilings (s : State) : s.recomputeBoarding.CeilingsAgree := ⟨rfl, rfl, fun _ => rfl⟩

theorem State.withEnvelope_frame (s : State) (e : Envelope) : s.OnlyChanges (s.withEnvelope e) [.envelope] :=
  (Move.withEnvelope s e (by decide)).onlyChanges

/-- A written envelope whose cabin count is as it was changes nothing of the sweep. -/
theorem State.takeEnvelope_of_count {e : Envelope} (h : e.count = s.envelope.count) :
    s.takeEnvelope e = (s.withEnvelope e).recomputeBoarding := if_pos h

theorem State.takeEnvelope_of_new_count {e : Envelope} (h : e.count ≠ s.envelope.count) :
    s.takeEnvelope e = (s.withEnvelope e).recomputeBoarding.finishSweep s .request := if_neg h

theorem State.takeEnvelope_conditions (s : State) (e : Envelope) : (s.takeEnvelope e).ConditionsAgree := by
  by_cases same : e.count = s.envelope.count
  · rw [State.takeEnvelope_of_count same]
    exact State.recomputeBoarding_conditions _
  · rw [State.takeEnvelope_of_new_count same]
    exact (Move.finishSweep _ _ _).inputs.conditionsAgree (State.recomputeBoarding_conditions _)

theorem State.takeEnvelope_ceilings (s : State) (e : Envelope) : (s.takeEnvelope e).CeilingsAgree := by
  by_cases same : e.count = s.envelope.count
  · rw [State.takeEnvelope_of_count same]
    exact State.recomputeBoarding_ceilings _
  · rw [State.takeEnvelope_of_new_count same]
    exact (Move.finishSweep _ _ _).inputs.ceilingsAgree (State.recomputeBoarding_ceilings _)

theorem State.takeEnvelope_gates (s : State) (e : Envelope) : (s.takeEnvelope e).board.gates = s.board.gates := by
  by_cases same : e.count = s.envelope.count
  · rw [State.takeEnvelope_of_count same]
    rfl
  · rw [State.takeEnvelope_of_new_count same]
    have board : ((s.withEnvelope e).recomputeBoarding.finishSweep s .request).board = (s.withEnvelope e).recomputeBoarding.board :=
      State.finishSweep_frame _ _ _ .board (by decide)
    rw [board, State.recomputeBoarding_gates, State.withEnvelope_board]

theorem State.written_frame (s : State) (e : Envelope) :
    s.OnlyChanges (s.withEnvelope e).recomputeBoarding [.envelope, .board, .governor] :=
  ((s.withEnvelope_frame e).mono (by decide)).trans ((Move.recomputeBoarding _).onlyChanges.mono (by decide))

/-- The state of the sweep by its causes, the level and the cabins 1 to N of its list (R141). -/
theorem State.sweepStateNow_eq (s : State) : s.sweepStateNow =
    if ¬ (s.sweep.wind = true ∨ s.sweep.close = true ∨ s.sweep.operator = true) then .idle
    else if s.wind.level = .park then .suspended
    else if ∃ c ∈ s.sweep.list, 1 ≤ c ∧ c ≤ s.envelope.count then .active else .done := by
  have some : s.unloadList.isEmpty = true ↔ ¬ ∃ c ∈ s.sweep.list, 1 ≤ c ∧ c ≤ s.envelope.count := by
    rw [State.unloadList_isEmpty]
    push Not
    rfl
  have causes := SweepScheduler.caused_iff (w := s.sweep)
  unfold State.sweepStateNow
  by_cases caused : s.sweep.caused = true
  · rw [if_neg (not_not.2 (causes.1 caused))]
    by_cases listed : ∃ c ∈ s.sweep.list, 1 ≤ c ∧ c ≤ s.envelope.count
    · simp [caused, listed, mt some.1 (not_not.2 listed)]
    · simp [caused, listed, some.2 listed]
  · rw [if_pos (mt causes.2 caused)]
    simp [caused]

/-- What a written envelope brings: the conditions and the ceilings follow it, the grants and the gates stay, and under a new cabin
count the sweep state follows the cabins 1 to N of the list (R52, R141, R173). -/
theorem State.takeEnvelope_spec (s : State) (e : Envelope) :
    (s.takeEnvelope e).envelope = e ∧ (s.takeEnvelope e).ConditionsAgree ∧
      (s.takeEnvelope e).governor.ceilingF = (s.takeEnvelope e).forwardNow ∧
      (s.takeEnvelope e).governor.ceilingV = (s.takeEnvelope e).reverseNow ∧
      (s.takeEnvelope e).board.grants = s.board.grants ∧ (s.takeEnvelope e).board.gates = s.board.gates ∧
      (e.count = s.envelope.count → s.OnlyChanges (s.takeEnvelope e) [.envelope, .board, .governor]) ∧
      (e.count ≠ s.envelope.count →
        (s.takeEnvelope e).sweep = { s.sweep with state :=
          if ¬ (s.sweep.wind = true ∨ s.sweep.close = true ∨ s.sweep.operator = true) then .idle
          else if s.wind.level = .park then .suspended
          else if ∃ c ∈ s.sweep.list, 1 ≤ c ∧ c ≤ e.count then .active
          else .done } ∧
        s.OnlyChanges (s.takeEnvelope e) [.envelope, .board, .governor, .sweep, .notices]) := by
  refine ⟨s.takeEnvelope_envelope e, s.takeEnvelope_conditions e, (s.takeEnvelope_ceilings e).1, (s.takeEnvelope_ceilings e).2.1,
    s.takeEnvelope_grants e, s.takeEnvelope_gates e, fun same => ?_, fun other => ⟨?_, ?_⟩⟩
  · rw [State.takeEnvelope_of_count same]
    exact s.written_frame e
  · rw [State.takeEnvelope_of_new_count other, State.finishSweep_sweep, State.sweepStateNow_eq]
    rfl
  · rw [State.takeEnvelope_of_new_count other]
    exact ((s.written_frame e).mono (by decide)).trans ((State.finishSweep_frame _ _ _).mono (by decide))

/-- An Envelope Write's body has its two argument bytes put together again. -/
theorem exec_envelopeWrite {who : Requester} {field : Byte} {value : BitVec 16} {u : State} {o : ReplyOutcome} {data : List Byte}
    (takes : s.Takes) (did : s.doEnvelopeWrite field value = (u, { outcome := o, data := data })) :
    exec (.envelopeWrite who field value) s = .next (u.replied who o data).close := by
  refine exec_replied rfl rfl takes ?_
  simpa only [State.handleListed, State.args3, append_extract] using did

section
variable {field : Byte} {value : BitVec 16} {lo hi : Nat}

theorem State.doEnvelopeWrite_of_locked (locked : s.envelope.locked = true) :
    s.doEnvelopeWrite field value = s.refuseRequest .locked := if_pos locked

theorem State.doEnvelopeWrite_of_busy (open_ : s.envelope.locked = false) (busy : s.inFlight = true) :
    s.doEnvelopeWrite field value = s.refuseRequest .busy := by
  unfold State.doEnvelopeWrite
  simp [open_, busy]

theorem State.doEnvelopeWrite_of_unlisted (open_ : s.envelope.locked = false) (free : s.inFlight = false)
    (range : envelopeRange field.toNat = none) : s.doEnvelopeWrite field value = s.refuseRequest .range := by
  unfold State.doEnvelopeWrite
  simp [open_, free, range]

theorem State.doEnvelopeWrite_of_outside (open_ : s.envelope.locked = false) (free : s.inFlight = false)
    (range : envelopeRange field.toNat = some (lo, hi)) (out : ¬ (lo ≤ value.toNat ∧ value.toNat ≤ hi)) :
    s.doEnvelopeWrite field value = s.refuseRequest .range := by
  unfold State.doEnvelopeWrite
  rw [if_neg (by simp [open_]), if_neg (by simp [free]), range]
  exact if_neg out

theorem State.doEnvelopeWrite_of_within (open_ : s.envelope.locked = false) (free : s.inFlight = false)
    (range : envelopeRange field.toNat = some (lo, hi)) (within : lo ≤ value.toNat ∧ value.toNat ≤ hi) :
    s.doEnvelopeWrite field value = (s.takeEnvelope (s.envelope.write field.toNat value.toNat), Answer.bare .done) := by
  unfold State.doEnvelopeWrite
  rw [if_neg (by simp [open_]), if_neg (by simp [free]), range]
  exact if_pos within

end

/-- Settles O58: the tests of R173 and R174 in their order, and each field's range. -/
theorem envelopeIsWrittenAndLocked : Obligations.EnvelopeIsWrittenAndLocked := by
  intro who field value s takes
  have lock {u : State} {o : ReplyOutcome} (did : s.doEnvelopeLock = (u, { outcome := o, data := [] })) :
      exec (.envelopeLock who) s = .next (u.replied who o []).close := exec_replied rfl rfl takes did
  have idle (free : s.envelope.locked = false ∧ s.policy.commit = .idle) : s.inFlight = false := State.inFlight_eq_false.2 free.2
  have writes {k lo hi : Nat} (free : s.envelope.locked = false ∧ s.policy.commit = .idle) (isField : field.toNat = k)
      (range : envelopeRange k = some (lo, hi)) (within : lo ≤ value.toNat ∧ value.toNat ≤ hi) :
      exec (.envelopeWrite who field value) s =
        .next ((s.takeEnvelope (s.envelope.write k value.toNat)).replied who .done []).close := by
    subst isField
    exact exec_envelopeWrite takes (State.doEnvelopeWrite_of_within free.1 (idle free) range within)
  have refuses {k lo hi : Nat} (free : s.envelope.locked = false ∧ s.policy.commit = .idle) (isField : field.toNat = k)
      (range : envelopeRange k = some (lo, hi)) (out : ¬ (lo ≤ value.toNat ∧ value.toNat ≤ hi)) :
      exec (.envelopeWrite who field value) s = .next (s.replied who .range []).close := by
    subst isField
    exact exec_envelopeWrite takes (State.doEnvelopeWrite_of_outside free.1 (idle free) range out)
  refine ⟨fun locked => ⟨exec_envelopeWrite takes (State.doEnvelopeWrite_of_locked locked), lock (if_pos locked)⟩,
    fun unlocked busy => ⟨exec_envelopeWrite takes (State.doEnvelopeWrite_of_busy unlocked (State.inFlight_eq_true.2 busy)), lock ?_⟩,
    fun free unlisted => exec_envelopeWrite takes (State.doEnvelopeWrite_of_unlisted free.1 (idle free) ?_),
    fun free isField => ⟨fun ranged => ⟨_, writes free (k := 0) (by rw [isField]; rfl) rfl ranged, s.takeEnvelope_spec _⟩,
      fun out => refuses free (k := 0) (by rw [isField]; rfl) rfl out⟩,
    fun free isField => ⟨fun ranged => ⟨_, writes free (k := 1) (by rw [isField]; rfl) rfl ranged, s.takeEnvelope_spec _⟩,
      fun out => refuses free (k := 1) (by rw [isField]; rfl) rfl out⟩,
    fun free isField => ⟨fun ranged => ⟨_, writes free (k := 2) (by rw [isField]; rfl) rfl ranged, s.takeEnvelope_spec _⟩,
      fun out => refuses free (k := 2) (by rw [isField]; rfl) rfl out⟩,
    fun free isField => ⟨fun ranged => ⟨_, writes free (k := 3) (by rw [isField]; rfl) rfl ⟨Nat.zero_le _, ranged⟩,
      s.takeEnvelope_spec _⟩, fun out => refuses free (k := 3) (by rw [isField]; rfl) rfl fun within => absurd within.2 (Nat.not_le.2 out)⟩,
    fun free isField => ⟨fun ranged => ⟨_, writes free (k := 4) (by rw [isField]; rfl) rfl ranged, s.takeEnvelope_spec _⟩,
      fun out => refuses free (k := 4) (by rw [isField]; rfl) rfl out⟩,
    fun free isField => ⟨fun ranged => ⟨_, writes free (k := 5) (by rw [isField]; rfl) rfl ⟨Nat.zero_le _, ranged⟩,
      s.takeEnvelope_spec _⟩, fun out => refuses free (k := 5) (by rw [isField]; rfl) rfl fun within => absurd within.2 (Nat.not_le.2 out)⟩,
    fun free isField => ⟨fun ranged => ⟨_, writes free (k := 6) (by rw [isField]; rfl) rfl ⟨Nat.zero_le _, ranged⟩,
      s.takeEnvelope_spec _⟩, fun out => refuses free (k := 6) (by rw [isField]; rfl) rfl fun within => absurd within.2 (Nat.not_le.2 out)⟩,
    fun free isField => ⟨fun ranged => ⟨_, writes free (k := 7) (by rw [isField]; rfl) rfl ranged, s.takeEnvelope_spec _⟩,
      fun out => refuses free (k := 7) (by rw [isField]; rfl) rfl out⟩,
    fun free complete apart => lock ?_, fun free fails => lock ?_⟩
  · unfold State.doEnvelopeLock
    rw [if_neg (by simp [unlocked]), if_pos (State.inFlight_eq_true.2 busy)]
    rfl
  · unfold envelopeRange
    split <;> first | rfl | omega
  · unfold State.doEnvelopeLock
    rw [if_neg (by simp [free.1]), if_neg (by simp [idle free]), if_pos ⟨complete, apart⟩]
    rfl
  · unfold State.doEnvelopeLock
    rw [if_neg (by simp [free.1]), if_neg (by simp [idle free]), if_neg (by rcases fails with open_ | same <;> simp [*])]
    rfl

/-! ## The stop latch -/

theorem State.setLatch_of_set (h : s.governor.latch = true) (subject : Byte) : s.setLatch subject = s := if_pos h

/-- A SET latch brings both ceilings to 0 and with them the rim-hold line of SCREEN mode. -/
theorem State.recomputeCeilings_of_latched (h : s.governor.latch = true) : s.recomputeCeilings.governor =
    { s.governor with ceilingF := 0, ceilingV := 0, rimHold := decide (s.mode = .screen) } := by
  have rimHold : rimHoldFor s.mode 0 0 = decide (s.mode = .screen) := by simp [rimHoldFor]
  rw [State.recomputeCeilings, State.withGovernor_governor, State.forwardNow_of_latched h, State.reverseNow_of_latched h, rimHold]

theorem State.setLatch_of_clear (h : s.governor.latch = false) (subject : Byte) : s.setLatch subject =
    (s.post .stop false subject (byte (s.governor.ceilingF / 256)) (byte s.governor.ceilingF)
      (byte (s.governor.ceilingV / 256)) (byte s.governor.ceilingV)).withGovernor
        { s.governor with latch := true, ceilingF := 0, ceilingV := 0, rimHold := decide (s.mode = .screen) } := by
  have clear : ¬ s.governor.latch = true := by simp [h]
  have unfolded : s.setLatch subject =
      (let t := s.post .stop false subject (byte (s.governor.ceilingF / 256)) (byte s.governor.ceilingF)
        (byte (s.governor.ceilingV / 256)) (byte s.governor.ceilingV)
       (t.withGovernor { t.governor with latch := true }).recomputeCeilings) := if_neg clear
  rw [unfolded]
  dsimp only
  generalize posted : s.post .stop false subject _ _ _ _ = t
  have governor : t.governor = s.governor := posted ▸ State.post_governor ..
  have mode : t.mode = s.mode := posted ▸ State.post_mode ..
  have latched : (t.withGovernor { t.governor with latch := true }).governor.latch = true := rfl
  have := State.recomputeCeilings_of_latched latched
  rw [State.withGovernor_governor, State.withGovernor_mode, governor, mode] at this
  rw [← this, governor]
  rfl

/-- Settles O59: the two states of the latch against the two levels of the input. -/
theorem stopLatchIsSetAndCleared : Obligations.StopLatchIsSetAndCleared := by
  intro who s
  refine ⟨fun running => ⟨fun clear => ?_, fun set => ?_, ?_⟩, fun takes => ⟨fun clear => ?_, fun set => ?_, fun clear => ?_,
    fun set active => ?_, fun set inactive => ?_⟩⟩
  · have taken := State.takeEvent_running (s := s.withStopIn true) running fun s => s.setLatch 0
    rw [State.setLatch_of_clear (s := s.withStopIn true) clear 0] at taken
    exact congrArg Host.Outcome.next taken
  · have taken := State.takeEvent_running (s := s.withStopIn true) running fun s => s.setLatch 0
    rw [State.setLatch_of_set (s := s.withStopIn true) set 0] at taken
    exact congrArg Host.Outcome.next taken
  · exact congrArg Host.Outcome.next (State.takeEvent_running (s := s.withStopIn false) running id)
  · refine exec_replied rfl rfl takes ?_
    have did : s.doLatchStop = (s.setLatch 1, { outcome := .done, data := (s.setLatch 1).stopData }) := rfl
    have stopIn : (s.setLatch 1).stopIn = s.stopIn := (Move.setLatch s 1).onlyChanges .stopIn (by decide)
    have set : (s.setLatch 1).governor.latch = true := by rw [State.setLatch_of_clear clear]; rfl
    rw [State.stopData, set, stopIn, State.setLatch_of_clear clear] at did
    exact did
  · refine exec_replied rfl rfl takes ?_
    have did : s.doLatchStop = (s.setLatch 1, { outcome := .done, data := (s.setLatch 1).stopData }) := rfl
    rw [State.setLatch_of_set set, State.stopData, set] at did
    exact did
  · refine exec_replied rfl rfl takes ?_
    have did : s.doClearStop = (s, { outcome := .done, data := s.stopData }) := if_pos clear
    rw [State.stopData, clear] at did
    exact did
  · refine exec_replied rfl rfl takes ?_
    have did : s.doClearStop = (s, { outcome := .state, data := s.stopData }) := by
      unfold State.doClearStop
      rw [if_neg (by simp [set]), if_pos active]
    rw [State.stopData, set, active] at did
    exact did
  · have did : s.doClearStop = (s.clearLatch, { outcome := .done, data := s.clearLatch.stopData }) := by
      unfold State.doClearStop
      rw [if_neg (by simp [set]), if_neg (by simp [inactive])]
    have stopIn : s.clearLatch.stopIn = false := inactive
    have latch : s.clearLatch.governor.latch = false := rfl
    rw [State.stopData, latch, stopIn] at did
    exact ⟨_, exec_replied rfl rfl takes did, rfl, rimHoldFor_eq_true, (Move.clearLatch s).onlyChanges⟩

/-! ## Resets and the loss of power -/

theorem exec_coldReset_of_powered {cause : ResetCause} (h : cause = .powerOn ∨ s.phase ≠ .unpowered) :
    exec (.coldReset cause) s = .next s.enterReset := by
  cases cause with
  | powerOn => rfl
  | resetPin => exact congrArg Host.Outcome.next (if_neg (h.resolve_left nofun))

/-- Settles O60: each is a command of one state. -/
theorem coldResetAndPowerLoss : Obligations.ColdResetAndPowerLoss := by
  refine ⟨fun cause s powered => ⟨s.enterReset, exec_coldReset_of_powered powered, rfl, rfl, rfl, rfl, rfl, rfl, rfl, rfl, rfl,
    fun i => ?_, rfl, rfl, ⟨rfl, rfl, rfl⟩, rfl, rfl⟩, fun s off => congrArg Host.Outcome.next (if_pos off),
    fun high s => ⟨fun other => congrArg Host.Outcome.next (State.leaveReset_of_not_held other high), fun held => ?_⟩,
    fun s => ⟨_, rfl, rfl, rfl, rfl, rfl, s.losePower_frame⟩⟩
  · have cabins : s.enterReset.cabins = Vector.replicate 64 Cabin.reset := rfl
    simp [cabins]
  · refine ⟨s.leaveReset high, rfl, ?_⟩
    have frame := s.leaveReset_frame high
    rw [State.leaveReset_of_held held] at frame ⊢
    refine ⟨rfl, rfl, rfl, rfl, ?_, frame⟩
    rw [rimHoldFor_eq_true]
    cases high <;> simp

end Sys2Proof.Machine
end

section
/-! PROOFS. The line: the arbiters' choices, the NOTICE frames, the notice queue and the combining buffer (R14 to R17, R182 to
R185). -/

namespace Sys2Proof.Machine

variable {s t : State}

/-! ## What the close leaves of the queues -/

theorem State.releaseAtClose_path (s : State) : s.releaseAtClose.path = s.path := s.releaseAtClose_frame .path (by decide)

theorem State.chooseSupervisor_field (s : State) : s.chooseSupervisor.path.fldTx = s.path.fldTx ∧
    s.chooseSupervisor.path.origin = s.path.origin ∧ s.chooseSupervisor.path.fldForward = s.path.fldForward := by
  unfold State.chooseSupervisor
  split
  · exact ⟨rfl, rfl, rfl⟩
  · split
    · exact ⟨rfl, rfl, rfl⟩
    · exact ⟨rfl, rfl, rfl⟩
    · split <;> exact ⟨rfl, rfl, rfl⟩
    · exact ⟨rfl, rfl, rfl⟩

/-- Building a NOTICE frame touches the part queue and its counter alone of the Frame Path. -/
theorem State.buildNotice_path (s : State) : ∃ seq part, s.buildNotice.path = { s.path with supSeq := seq, part := part } ∧
    s.path.part <+: part := by
  unfold State.buildNotice
  split
  · exact ⟨_, _, rfl, List.prefix_append _ _⟩
  · exact ⟨_, _, rfl, List.prefix_rfl⟩

theorem State.buildNotices_path (s : State) : ∃ seq part, s.buildNotices.path = { s.path with supSeq := seq, part := part } ∧
    s.path.part <+: part := by
  have step {u : State} (h : ∃ seq part, u.path = { s.path with supSeq := seq, part := part } ∧ s.path.part <+: part) :
      ∃ seq part, u.buildNotice.path = { s.path with supSeq := seq, part := part } ∧ s.path.part <+: part := by
    obtain ⟨seq, part, path, before⟩ := h
    obtain ⟨seq', part', path', after⟩ := u.buildNotice_path
    refine ⟨seq', part', by rw [path', path], ?_⟩
    rw [path] at after
    exact before.trans after
  exact step (step (step (step (step s.buildNotice_path))))

/-- The field port's transmitter and queues go through a settling by that port's own choice alone. -/
theorem State.close_fieldQueues (s : State) : ∃ u : State, s.close = u.chooseField ∧ u.path.fldTx = s.path.fldTx ∧
    u.path.origin = s.path.origin ∧ u.path.fldForward = s.path.fldForward := by
  have choose (u : State) := u.chooseSupervisor_field
  have build (u : State) : u.buildNotices.path.fldTx = u.path.fldTx ∧ u.buildNotices.path.origin = u.path.origin ∧
      u.buildNotices.path.fldForward = u.path.fldForward := by
    obtain ⟨_, _, path, -⟩ := u.buildNotices_path
    rw [path]
    exact ⟨rfl, rfl, rfl⟩
  refine ⟨_, rfl, ?_, ?_, ?_⟩
  · rw [(build _).1, (choose _).1, (build _).1, (choose _).1, State.releaseAtClose_path]
  · rw [(build _).2.1, (choose _).2.1, (build _).2.1, (choose _).2.1, State.releaseAtClose_path]
  · rw [(build _).2.2, (choose _).2.2, (build _).2.2, (choose _).2.2, State.releaseAtClose_path]

theorem State.close_field_of_busy {f : Frame} (busy : s.path.fldTx = some f) : s.close.path.fldTx = some f ∧
    s.close.path.origin = s.path.origin ∧ s.close.path.fldForward = s.path.fldForward := by
  obtain ⟨u, closed, fldTx, origin, fld⟩ := s.close_fieldQueues
  rw [closed, State.chooseField_of_busy (fldTx.trans busy), fldTx, origin, fld]
  exact ⟨busy, rfl, rfl⟩

theorem State.close_field_of_empty (origin : s.path.origin = []) (fld : s.path.fldForward = []) :
    s.close.path.fldTx = s.path.fldTx := by
  obtain ⟨u, closed, fldTx, origin', fld'⟩ := s.close_fieldQueues
  rw [closed, State.chooseField_of_empty (origin'.trans origin) (fld'.trans fld), fldTx]

theorem State.chooseField_runCount (s : State) : s.chooseField.path.runCount = s.path.runCount := by
  unfold State.chooseField
  split
  · rfl
  · split
    · rfl
    · split <;> rfl

/-- A supervisor transmitter that is busy goes on through a settling, which only adds to the part queue. -/
theorem State.close_supervisor_of_busy {f : Frame} (busy : s.path.supTx = some f) : s.close.path.supTx = some f ∧
    s.close.path.supForward = s.path.supForward ∧ s.path.part <+: s.close.path.part ∧
    s.close.path.runCount = s.path.runCount := by
  have released : s.releaseAtClose.chooseSupervisor = s.releaseAtClose :=
    State.chooseSupervisor_of_busy (by rw [s.releaseAtClose_path]; exact busy)
  obtain ⟨seq, part, path, grown⟩ := s.releaseAtClose.buildNotices_path
  rw [State.releaseAtClose_path] at path grown
  have goesOn : s.releaseAtClose.buildNotices.chooseSupervisor = s.releaseAtClose.buildNotices :=
    State.chooseSupervisor_of_busy (by rw [path]; exact busy)
  have built : s.releaseAtClose.buildNotices.buildNotices = s.releaseAtClose.buildNotices :=
    State.buildNotices_of_built (State.buildNotices_built _)
  have closed : s.close = s.releaseAtClose.buildNotices.chooseField := by
    rw [State.close, State.settle, released, goesOn, built]
  obtain ⟨supTx, supForward, part', -⟩ := s.releaseAtClose.buildNotices.chooseField_supervisor
  rw [closed, supTx, supForward, part', State.chooseField_runCount, path]
  exact ⟨busy, rfl, grown, rfl⟩

theorem State.close_supervisor_of_empty (idle : s.path.supTx = none) (sup : s.path.supForward = []) (part : s.path.part = [])
    (queue : s.notices.queue = []) (atClose : s.notices.atClose = []) :
    s.close.path.supTx = none ∧ s.close.path.runCount = s.path.runCount := by
  have none : s.releaseAtClose.notices.queue = [] := by
    unfold State.releaseAtClose
    rw [atClose]
    exact queue
  have path := s.releaseAtClose_path
  have noChoice : s.releaseAtClose.chooseSupervisor = s.releaseAtClose :=
    State.chooseSupervisor_of_empty (by rw [path]; exact sup) (by rw [path]; exact part)
  have noFrame : s.releaseAtClose.buildNotices = s.releaseAtClose := State.buildNotices_of_built (.inl none)
  have closed : s.close = s.releaseAtClose.chooseField := by
    rw [State.close, State.settle, noChoice, noFrame, noChoice, noFrame]
  rw [closed, s.releaseAtClose.chooseField_supervisor.1, State.chooseField_runCount, path]
  exact ⟨idle, rfl⟩

/-! ## The arbiters' tables -/

theorem State.chooseField_of_origin {o : Originated} {os : List Originated} (idle : s.path.fldTx = none)
    (origin : s.path.origin = o :: os) : s.chooseField = s.withPath { s.path with fldTx := some o.frame, origin := os } := by
  unfold State.chooseField
  rw [idle, origin]

theorem State.chooseField_of_forward {f : Frame} {fs : List Frame} (idle : s.path.fldTx = none) (origin : s.path.origin = [])
    (fld : s.path.fldForward = f :: fs) : s.chooseField = s.withPath { s.path with fldTx := some f, fldForward := fs } := by
  unfold State.chooseField
  rw [idle, origin, fld]

section
variable {f p : Frame} {fs ps : List Frame}

theorem State.chooseSupervisor_of_forward (idle : s.path.supTx = none) (sup : s.path.supForward = f :: fs)
    (part : s.path.part = []) :
    s.chooseSupervisor = s.withPath { s.path with supTx := some f, supForward := fs, runCount := 0 } := by
  unfold State.chooseSupervisor
  rw [idle, sup, part]

theorem State.chooseSupervisor_of_part (idle : s.path.supTx = none) (sup : s.path.supForward = [])
    (part : s.path.part = p :: ps) :
    s.chooseSupervisor = s.withPath { s.path with supTx := some p, part := ps, runCount := 0 } := by
  unfold State.chooseSupervisor
  rw [idle, sup, part]

theorem State.chooseSupervisor_of_run (idle : s.path.supTx = none) (sup : s.path.supForward = f :: fs)
    (part : s.path.part = p :: ps) (run : s.path.runCount < 4) : s.chooseSupervisor =
      s.withPath { s.path with supTx := some f, supForward := fs, runCount := s.path.runCount + 1 } := by
  unfold State.chooseSupervisor
  rw [idle, sup, part]
  exact if_pos run

theorem State.chooseSupervisor_of_full_run (idle : s.path.supTx = none) (sup : s.path.supForward = f :: fs)
    (part : s.path.part = p :: ps) (run : 4 ≤ s.path.runCount) :
    s.chooseSupervisor = s.withPath { s.path with supTx := some p, part := ps, runCount := 0 } := by
  unfold State.chooseSupervisor
  rw [idle, sup, part]
  exact if_neg (Nat.not_lt.2 run)

end

/-- The field port's table, at the close of an event that an idle transmitter's choice began. -/
theorem State.chooseField_closes (idle : s.path.fldTx = none) :
    (∀ o os, s.path.origin = o :: os → s.chooseField.close.path.fldTx = some o.frame ∧
      s.chooseField.close.path.origin = os ∧ s.chooseField.close.path.fldForward = s.path.fldForward) ∧
    (∀ f fs, s.path.origin = [] → s.path.fldForward = f :: fs → s.chooseField.close.path.fldTx = some f ∧
      s.chooseField.close.path.origin = [] ∧ s.chooseField.close.path.fldForward = fs) ∧
    (s.path.origin = [] → s.path.fldForward = [] → s.chooseField.close.path.fldTx = none) := by
  refine ⟨fun o os origin => ?_, fun f fs origin fld => ?_, fun origin fld => ?_⟩
  · rw [State.chooseField_of_origin idle origin]
    exact State.close_field_of_busy rfl
  · rw [State.chooseField_of_forward idle origin fld]
    obtain ⟨fldTx, noOrigin, rest⟩ :=
      State.close_field_of_busy (s := s.withPath { s.path with fldTx := some f, fldForward := fs }) rfl
    exact ⟨fldTx, noOrigin.trans origin, rest⟩
  · rw [State.chooseField_of_empty origin fld, State.close_field_of_empty origin fld]
    exact idle

/-- The supervisor port's table, at the close of an event that an idle transmitter's choice began. -/
theorem State.chooseSupervisor_closes (idle : s.path.supTx = none) :
    (∀ f fs, s.path.supForward = f :: fs → s.path.part = [] → s.chooseSupervisor.close.path.supTx = some f ∧
      s.chooseSupervisor.close.path.supForward = fs ∧ s.chooseSupervisor.close.path.runCount = 0) ∧
    (∀ p ps, s.path.supForward = [] → s.path.part = p :: ps → s.chooseSupervisor.close.path.supTx = some p ∧
      s.chooseSupervisor.close.path.supForward = [] ∧ ps <+: s.chooseSupervisor.close.path.part ∧
      s.chooseSupervisor.close.path.runCount = 0) ∧
    (∀ f fs p ps, s.path.supForward = f :: fs → s.path.part = p :: ps → s.path.runCount < 4 →
      s.chooseSupervisor.close.path.supTx = some f ∧ s.chooseSupervisor.close.path.supForward = fs ∧
      p :: ps <+: s.chooseSupervisor.close.path.part ∧
      s.chooseSupervisor.close.path.runCount = s.path.runCount + 1) ∧
    (∀ f fs p ps, s.path.supForward = f :: fs → s.path.part = p :: ps → 4 ≤ s.path.runCount →
      s.chooseSupervisor.close.path.supTx = some p ∧ s.chooseSupervisor.close.path.supForward = f :: fs ∧
      ps <+: s.chooseSupervisor.close.path.part ∧ s.chooseSupervisor.close.path.runCount = 0) := by
  refine ⟨fun f fs sup part => ?_, fun p ps sup part => ?_, fun f fs p ps sup part run => ?_, fun f fs p ps sup part run => ?_⟩
  · rw [State.chooseSupervisor_of_forward idle sup part]
    obtain ⟨supTx, rest, -, run⟩ :=
      State.close_supervisor_of_busy (s := s.withPath { s.path with supTx := some f, supForward := fs, runCount := 0 }) rfl
    exact ⟨supTx, rest, run⟩
  · rw [State.chooseSupervisor_of_part idle sup part]
    obtain ⟨supTx, forward, rest, run⟩ :=
      State.close_supervisor_of_busy (s := s.withPath { s.path with supTx := some p, part := ps, runCount := 0 }) rfl
    exact ⟨supTx, forward.trans sup, rest, run⟩
  · rw [State.chooseSupervisor_of_run idle sup part run]
    obtain ⟨supTx, rest, kept, counted⟩ := State.close_supervisor_of_busy
      (s := s.withPath { s.path with supTx := some f, supForward := fs, runCount := s.path.runCount + 1 }) rfl
    exact ⟨supTx, rest, part ▸ kept, counted⟩
  · rw [State.chooseSupervisor_of_full_run idle sup part run]
    obtain ⟨supTx, forward, rest, none⟩ :=
      State.close_supervisor_of_busy (s := s.withPath { s.path with supTx := some p, part := ps, runCount := 0 }) rfl
    exact ⟨supTx, forward.trans sup, rest, none⟩

/-- Settles O35: a completed frame leaves its transmitter idle, and an idle transmitter's choice is busy through the close. -/
theorem transmittersChoose : Obligations.TransmittersChoose := by
  intro s running
  have event (f : State → State) : (.next (s.takeEvent f) : Host.Outcome State Fault Refusal) = .next (f s).close :=
    congrArg _ (State.takeEvent_running running f)
  have frame (u : State) (p : Port) (h : s.OnlyChanges u [.path]) : s.OnlyChanges (u.choose p).close [.path, .notices] :=
    ((h.trans (u.choose_frame p)).mono (by decide)).trans (State.close_frame _)
  refine ⟨fun idle => ⟨_, event _, frame s .field (.refl _ _), State.chooseField_closes idle⟩,
    fun idle => ⟨_, event _, frame s .supervisor (.refl _ _), State.chooseSupervisor_closes idle⟩, fun busy => ?_, fun busy => ?_,
    ⟨_, event _, frame _ .field (s.endTransmission_frame .field), State.chooseField_closes (s := s.endTransmission .field) rfl⟩,
    ⟨_, event _, ⟨frame _ .supervisor (s.endTransmission_frame .supervisor),
      State.chooseSupervisor_closes (s := s.endTransmission .supervisor) rfl⟩, fun sup part queue atClose => ?_⟩⟩
  · obtain ⟨f, busy⟩ := Option.ne_none_iff_exists'.1 busy
    exact (event _).trans (congrArg (fun t => Host.Outcome.next (State.close t)) (State.chooseField_of_busy busy))
  · obtain ⟨f, busy⟩ := Option.ne_none_iff_exists'.1 busy
    exact (event _).trans (congrArg (fun t => Host.Outcome.next (State.close t)) (State.chooseSupervisor_of_busy busy))
  · rw [State.choose, State.chooseSupervisor_of_empty (s := s.endTransmission .supervisor) sup part]
    exact State.close_supervisor_of_empty (s := s.endTransmission .supervisor) rfl sup part queue atClose

/-! ## NOTICE frames -/

/-- From `s` to `u` the part queue has grown by NOTICE frames, and not beyond six frames (R14). -/
def State.Builds (s u : State) (frames : List Frame) : Prop :=
  u.path.part = s.path.part ++ frames ∧ (6 ≤ s.path.part.length → frames = []) ∧
    u.path.part.length ≤ max 6 s.path.part.length ∧ ∀ f ∈ frames, f.cls = codeNotice ∧ f.flags = 0

theorem State.Builds.refl (s : State) : s.Builds s [] := ⟨by simp, fun _ => rfl, le_max_right _ _, nofun⟩

theorem State.Builds.trans {u : State} {fs gs : List Frame} (h : s.Builds t fs) (k : t.Builds u gs) : s.Builds u (fs ++ gs) := by
  obtain ⟨part, full, bound, form⟩ := h
  obtain ⟨part', full', bound', form'⟩ := k
  have longer : s.path.part.length ≤ t.path.part.length := by rw [part]; simp
  refine ⟨by rw [part', part, List.append_assoc], fun six => ?_, by omega, fun f mem => (List.mem_append.1 mem).elim (form f) (form' f)⟩
  rw [full six, full' (six.trans longer), List.nil_append]

/-- The frame built for the first records of the queue (R8, R14, R22). -/
def State.noticeFrame (s : State) : Frame :=
  Frame.build s.noticeDest s.envelope.own codeNotice 0 s.path.supSeq ((s.notices.queue.take 4).flatMap fun q => q.note.bytes)

theorem State.buildNotice_builds_waiting (waits : s.notices.queue ≠ []) (room : s.path.part.length < 6) :
    s.Builds s.buildNotice [s.noticeFrame] := by
  rw [State.buildNotice_of_waiting waits room]
  refine ⟨rfl, fun six => absurd room (Nat.not_lt.2 six), ?_, fun f mem => ?_⟩
  · simp only [State.enqueuePart, State.withNotices_path, State.withPath_path, List.length_append, List.length_singleton]
    omega
  · rw [List.mem_singleton.1 mem]
    exact ⟨rfl, rfl⟩

theorem State.buildNotice_builds (s : State) : ∃ frames, s.Builds s.buildNotice frames := by
  by_cases built : s.Built
  · rw [State.buildNotice_of_built built]
    exact ⟨[], .refl s⟩
  · obtain ⟨waits, full⟩ := not_or.1 built
    exact ⟨_, State.buildNotice_builds_waiting waits (Nat.not_le.1 full)⟩

theorem State.Builds.again {fs : List Frame} (h : s.Builds t fs) : ∃ gs, s.Builds t.buildNotice (fs ++ gs) :=
  have ⟨gs, k⟩ := t.buildNotice_builds
  ⟨gs, h.trans k⟩

/-- Six builds after a first. -/
theorem State.buildNotices_builds {fs : List Frame} (h : s.Builds s.buildNotice fs) :
    ∃ gs, s.Builds s.buildNotices (fs ++ gs) := by
  obtain ⟨g2, h⟩ := h.again
  obtain ⟨g3, h⟩ := h.again
  obtain ⟨g4, h⟩ := h.again
  obtain ⟨g5, h⟩ := h.again
  obtain ⟨g6, h⟩ := h.again
  exact ⟨g2 ++ g3 ++ g4 ++ g5 ++ g6, by simpa only [List.append_assoc, State.buildNotices] using h⟩

/-- Settles O36: the first build, and those that follow it until no record or no room is left. -/
theorem noticeFramesAreBuilt : Obligations.NoticeFramesAreBuilt := by
  intro s running
  have event : exec .noticeFrameBuild s = .next s.buildNotices.close := congrArg _ (State.takeEvent_running running _)
  have built := s.buildNotices_built
  by_cases waiting : s.notices.queue ≠ [] ∧ s.path.part.length < 6
  · obtain ⟨gs, part, full, bound, form⟩ := State.buildNotices_builds (State.buildNotice_builds_waiting waiting.1 waiting.2)
    exact ⟨_, _, event, s.buildNotices_frame, part, built, full, bound, form, fun _ _ => rfl⟩
  · obtain ⟨fs, first⟩ := s.buildNotice_builds
    obtain ⟨gs, part, full, bound, form⟩ := State.buildNotices_builds first
    exact ⟨_, _, event, s.buildNotices_frame, part, built, full, bound, form, fun waits room => absurd ⟨waits, room⟩ waiting⟩

/-! ## The notice queue -/

theorem NoticeUnit.enter_of_room {u : NoticeUnit} {n : Notice} (flowing : u.freeze = .flowing) (room : u.queue.length < 32) :
    u.enter n = { u with queue := u.queue ++ [{ note := n, lastGood := false }] } := by
  unfold NoticeUnit.enter
  rw [flowing]
  exact if_pos room

theorem NoticeUnit.enter_of_full {u : NoticeUnit} {n : Notice} (flowing : u.freeze = .flowing) (full : 32 ≤ u.queue.length) :
    u.enter n = { u with freeze := .holding, queue := markLast u.queue, lost := 1, firstLost := some n.kind } := by
  unfold NoticeUnit.enter
  rw [flowing]
  exact if_neg (Nat.not_lt.2 full)

theorem NoticeUnit.enter_of_frozen {u : NoticeUnit} {n : Notice} (frozen : u.freeze ≠ .flowing) :
    u.enter n = { u with lost := min (u.lost + 1) 65535 } := by
  unfold NoticeUnit.enter
  split
  · next flowing => exact absurd flowing frozen
  all_goals rfl

theorem markLast_append (qs : List Queued) (q : Queued) : markLast (qs ++ [q]) = qs ++ [{ q with lastGood := true }] := by
  induction qs with
  | nil => rfl
  | cons r qs ih =>
    cases qs with
    | nil => rfl
    | cons r' qs => rw [List.cons_append, List.cons_append, markLast, ← List.cons_append, ih]; rfl

/-- Settles O37: R184's table by the freeze, the frame that takes the last record, and Resume Notices by the state. -/
theorem noticeQueueFreezes : Obligations.NoticeQueueFreezes := by
  refine ⟨fun u n => ⟨NoticeUnit.enter_of_room, fun qs q flowing queue full => ?_, NoticeUnit.enter_of_frozen⟩,
    fun u stamp q k queue first => ⟨fun last => ?_, fun plain overflow => ?_⟩,
    fun who s takes => ⟨fun reported => exec_replied rfl rfl takes (if_pos reported),
      fun other => exec_replied rfl rfl takes (if_neg other)⟩⟩
  · rw [NoticeUnit.enter_of_full flowing full, queue, markLast_append]
  · unfold NoticeUnit.giveUp
    simp [queue, last, overflowRecord, first]
  · unfold NoticeUnit.giveUp
    simp [queue, plain, overflow]

/-! ## The combining buffer -/

theorem foldInto_append (n m : Notice) (as bs : List Notice) (before : ∀ a ∈ as, a.sameKey n = false)
    (found : m.sameKey n = true) :
    foldInto n (as ++ m :: bs) = as ++ { n with count := min (m.count + 1) 255 } :: bs := by
  induction as with
  | nil => rw [List.nil_append, foldInto, if_pos found]; rfl
  | cons a as ih =>
    rw [List.cons_append, foldInto, if_neg (by simp [before a List.mem_cons_self]),
      ih fun x mem => before x (List.mem_cons_of_mem a mem)]
    rfl

/-- While the queue flows and has room, records enter it in their order. -/
theorem NoticeUnit.foldl_enter_of_room (l : List Notice) (u : NoticeUnit) (flowing : u.freeze = .flowing)
    (room : u.queue.length + l.length ≤ 32) :
    l.foldl NoticeUnit.enter u = { u with queue := u.queue ++ l.map fun m => { note := m, lastGood := false } } := by
  induction l generalizing u with
  | nil => simp
  | cons n l ih =>
    rw [List.length_cons] at room
    rw [List.foldl_cons, NoticeUnit.enter_of_room flowing (by omega)]
    refine (ih { u with queue := u.queue ++ [{ note := n, lastGood := false }] } flowing ?_).trans ?_
    · rw [List.length_append, List.length_singleton]; omega
    · simp

theorem NoticeUnit.drain_of_room {u : NoticeUnit} (flowing : u.freeze = .flowing)
    (room : u.queue.length + u.buffer.length ≤ 32) : u.drain = { u with
      buffer := [], flush := none, queue := u.queue ++ u.buffer.map fun m => { note := m, lastGood := false } } :=
  NoticeUnit.foldl_enter_of_room u.buffer { u with buffer := [], flush := none } flowing room

theorem NoticeUnit.take_of_combinable {u : NoticeUnit} {n : Notice} (h : n.kind.combinable = true) (delay : Nat) :
    u.take delay n = u.combine delay n := if_pos h

/-- A notice whose key does not wait is not folded. -/
theorem NoticeUnit.combine_of_new {u : NoticeUnit} {n : Notice} (new : ∀ a ∈ u.buffer, a.sameKey n = false) (delay : Nat) :
    u.combine delay n = match u.buffer with
      | [] => { u with buffer := [n], flush := some delay }
      | m :: ms => if u.buffer.length < bufferRoom then { u with buffer := u.buffer ++ [n] }
          else { (u.enter m) with buffer := ms ++ [n] } := by
  have none : ¬ (u.buffer.any fun m => m.sameKey n) = true := by simpa using new
  unfold NoticeUnit.combine
  exact if_neg none

theorem State.advance_zero (s : State) : s.advance 0 = s := by
  have drives : (Vector.ofFn fun d : DriveIx => ({ s.governor.drives[d] with
      stale := (s.governor.drives[d]).stale.map (· - 0) } : Drive)) = s.governor.drives := by
    ext i h
    simp
  have timer (x : Option Nat) : x.map (· - 0) = x := by simp
  unfold State.advance
  rw [drives, timer, timer, timer]
  rfl

/-- Settles O38: the buffer's four cases, and the two ways it drains. -/
theorem combiningBufferFolds : Obligations.CombiningBufferFolds := by
  refine ⟨fun u delay n combinable => ⟨fun as m bs buffer before found => ?_, fun empty => ?_, fun some room new => ?_,
    fun m ms buffer full new => ?_⟩, fun u delay n serializing flowing room => ?_, fun s running due flowing room => ?_⟩
  · have waits : (u.buffer.any fun m => m.sameKey n) = true := by simp [buffer, found]
    rw [NoticeUnit.take_of_combinable combinable, NoticeUnit.combine, if_pos waits, buffer,
      foldInto_append n m as bs before found]
  · rw [NoticeUnit.take_of_combinable combinable, NoticeUnit.combine_of_new (by simp [empty]), empty]
  · rw [NoticeUnit.take_of_combinable combinable, NoticeUnit.combine_of_new new]
    split
    · next empty => exact absurd empty some
    · exact if_pos room
  · rw [NoticeUnit.take_of_combinable combinable, NoticeUnit.combine_of_new new, buffer]
    rw [buffer] at full
    exact if_neg (Nat.not_lt.2 full)
  · rw [NoticeUnit.take, if_neg (by simp [serializing]), NoticeUnit.drain_of_room flowing (by omega)]
    refine (NoticeUnit.enter_of_room (by exact flowing) ?_).trans ?_
    · rw [List.length_append, List.length_map]; omega
    · simp
  · have expired : s.flushExpiry = s.withNotices s.notices.drain := by
      unfold State.flushExpiry
      rw [due]
      dsimp only
      rw [State.advance_zero]
    rw [show exec .flushTimerExpiry s = .next s.flushExpiry.close from congrArg _ (State.takeEvent_running running _), expired,
      NoticeUnit.drain_of_room flowing room]

end Sys2Proof.Machine
end

section
/-! PROOFS. The causes of a sweep and the changes of the level: what each operation does to the cause set, and with it the requests
and steps that move them (R103 to R107, R141 to R143, R154, R155, R179, R180). -/

namespace Sys2Proof.Machine

variable {s t : State}

/-! ## The cause set -/

theorem SweepScheduler.setCause_of_has {w : SweepScheduler} {c : Cause} {v : Bool} (h : w.has c = v) : w.setCause v c = w := by
  cases c <;> subst h <;> rfl

theorem State.appendQualifying_sweep (s : State) :
    s.appendQualifying.sweep = { s.sweep with list := s.sweep.list ++ s.joining } := State.foldl_appendCabin_sweep _ _

/-- A cause that enters the set brings the cabins that qualify behind those listed. -/
theorem State.addCause_sweep {c : Cause} (off : s.sweep.has c = false) :
    (s.addCause c).sweep = { s.sweep.setCause true c with list := s.sweep.list ++ s.joining } := by
  have joined : (s.withSweep (s.sweep.setCause true c)).appendQualifying.sweep =
      { s.sweep.setCause true c with list := s.sweep.list ++ s.joining } := by
    rw [State.appendQualifying_sweep, State.withSweep_sweep, SweepScheduler.setCause_list]
    rfl
  unfold State.addCause
  rw [if_neg (by simp [off])]
  dsimp only
  split
  · rw [State.buildList_sweep, joined]
  · exact joined

theorem State.addCause_mark {c : Cause} (off : s.sweep.has c = false) {x : Nat} (joins : x ∈ s.joining) (high : x ≤ 64) :
    ((s.addCause c).cabin x).mark = some .pending := by
  obtain ⟨⟨low, -⟩, -⟩ := State.mem_joining.1 joins
  have joined : ((s.withSweep (s.sweep.setCause true c)).appendQualifying.cabin x).mark = some .pending := by
    rw [State.appendQualifying, State.foldl_appendCabin_cabin, if_pos ⟨joins, low, high⟩]
  unfold State.addCause
  rw [if_neg (by simp [off])]
  dsimp only
  split
  · rw [State.buildList_mark, joined]
  · exact joined

/-- A cause that leaves others behind takes nothing else out. -/
theorem State.removeCause_of_others {c : Cause} (on : s.sweep.has c = true) (others : (s.sweep.setCause false c).caused = true) :
    s.removeCause c = s.withSweep (s.sweep.setCause false c) := by
  unfold State.removeCause
  rw [if_pos on]
  exact if_pos others

/-- The last cause out empties the list and clears the marks (R154). -/
theorem State.removeCause_of_last {c : Cause} (on : s.sweep.has c = true) (last : (s.sweep.setCause false c).caused = false) :
    s.removeCause c = (s.withSweep (s.sweep.setCause false c)).clearList := by
  unfold State.removeCause
  rw [if_pos on]
  exact if_neg (by simpa using last)

theorem State.addCause_causes (s : State) (c : Cause) : ∃ list, (s.addCause c).sweep =
    { s.sweep.setCause true c with list := list } := by
  cases has : s.sweep.has c with
  | true => exact ⟨s.sweep.list, by rw [SweepScheduler.setCause_of_has has, State.addCause, if_pos has]⟩
  | false => exact ⟨_, State.addCause_sweep has⟩

theorem State.removeCause_causes (s : State) (c : Cause) : ∃ list, (s.removeCause c).sweep =
    { s.sweep.setCause false c with list := list } := by
  cases has : s.sweep.has c with
  | false =>
      exact ⟨s.sweep.list, by rw [SweepScheduler.setCause_of_has has, State.removeCause, if_neg (by simp [has])]⟩
  | true =>
      cases others : (s.sweep.setCause false c).caused with
      | true =>
          exact ⟨s.sweep.list, by rw [State.removeCause_of_others has others, State.withSweep_sweep,
            ← SweepScheduler.setCause_list s.sweep false c]⟩
      | false => exact ⟨[], by rw [State.removeCause_of_last has others, State.clearList_sweep, State.withSweep_sweep]⟩

/-- The scheduler's part of a level change leaves CLOSE, OPERATOR and the served flags, and holds WIND from UNLOAD on (R142). -/
theorem State.sweepLevel_causes (s : State) : ∃ state list, s.sweepLevel.sweep =
    { s.sweep with wind := decide (3 ≤ s.wind.level.code), state := state, list := list } := by
  unfold State.sweepLevel
  split
  · next high =>
    obtain ⟨list, sweep⟩ := s.addCause_causes .wind
    exact ⟨_, list, by rw [State.finishSweep_sweep, sweep, decide_eq_true high]; rfl⟩
  · next low =>
    obtain ⟨list, sweep⟩ := s.removeCause_causes .wind
    exact ⟨_, list, by rw [State.finishSweep_sweep, sweep, decide_eq_false low]; rfl⟩

/-! ## Level changes -/

/-- The state in which the scheduler and the beacons hear of a level change: the level, its hold-down and the ceilings are set. -/
def State.levelSet (s : State) (l : Level) : State :=
  ((s.withWind { s.wind with level := l, countdown := s.active.holdDown l }).postLevel s.wind.level).recomputeCeilings

theorem State.changeLevel_eq (s : State) (l : Level) : s.changeLevel l = (s.levelSet l).sweepLevel.refreshBeacons := rfl

theorem State.levelSet_wind (s : State) (l : Level) :
    (s.levelSet l).wind = { s.wind with level := l, countdown := s.active.holdDown l } := by
  rw [State.levelSet, State.recomputeCeilings_wind, State.postLevel, State.post_wind, State.withWind_wind]

theorem State.levelSet_frame (s : State) (l : Level) : s.OnlyChanges (s.levelSet l) [.wind, .notices, .governor] := by
  have set : s.OnlyChanges (s.withWind { s.wind with level := l, countdown := s.active.holdDown l }) [.wind] :=
    (Move.withWind (q := false) (bs := [.wind]) s _ (by decide) (by simp)).onlyChanges
  exact ((set.mono (by decide)).trans ((State.post_frame _ _ _ _ _ _ _ _).mono (by decide))).trans
    ((Move.recomputeCeilings _).onlyChanges.mono (by decide))

theorem State.changeLevel_causes (s : State) (l : Level) : ∃ state list, (s.changeLevel l).sweep =
    { s.sweep with wind := decide (3 ≤ l.code), state := state, list := list } := by
  obtain ⟨state, list, sweep⟩ := (s.levelSet l).sweepLevel_causes
  have kept : (s.changeLevel l).sweep = (s.levelSet l).sweepLevel.sweep :=
    (Move.refreshBeacons (q := true) (s.levelSet l).sweepLevel).onlyChanges .sweep (by decide)
  have before : (s.levelSet l).sweep = s.sweep := s.levelSet_frame l .sweep (by decide)
  refine ⟨state, list, ?_⟩
  rw [kept, sweep, before, s.levelSet_wind]

theorem State.changeLevel_ceilings (s : State) (l : Level) : (s.changeLevel l).CeilingsAgree :=
  (Move.refreshBeacons _).inputs.ceilingsAgree ((Move.sweepLevel _).inputs.ceilingsAgree (State.recomputeCeilings_ceilings _))

theorem State.tickLevel_causes (s : State) : ∃ wind state list, s.tickLevel.sweep =
    { s.sweep with wind := wind, state := state, list := list } := by
  have kept (n : Nat) : ∃ wind state list, (s.withWind { s.wind with countdown := n }).sweep =
      { s.sweep with wind := wind, state := state, list := list } := ⟨s.sweep.wind, s.sweep.state, s.sweep.list, rfl⟩
  have changed (l : Level) : ∃ wind state list, (s.changeLevel l).sweep =
      { s.sweep with wind := wind, state := state, list := list } := ⟨_, s.changeLevel_causes l⟩
  unfold State.tickLevel
  split
  · exact changed _
  · unfold State.descend
    split
    · exact kept 0
    · split
      · split
        · exact changed _
        · exact kept _
      · exact kept _

/-- The state in which a tick judges the level: every channel's second closed and the effective wind recomputed. -/
def State.secondClosed (s : State) : State := (channelIndices.foldl State.tickChannel s).recomputeWind

theorem State.windTick_eq (s : State) : s.windTick = s.secondClosed.tickLevel := rfl

theorem State.secondClosed_move (s : State) : Move true [.wind, .notices] s s.secondClosed :=
  .trans (.foldl Move.tickChannel _ _) ((Move.recomputeWind _).mono (by decide))

/-- A tick leaves CLOSE, OPERATOR and the served flags. -/
theorem State.windTick_causes (s : State) : ∃ wind state list, s.windTick.sweep =
    { s.sweep with wind := wind, state := state, list := list } := by
  obtain ⟨wind, state, list, sweep⟩ := s.secondClosed.tickLevel_causes
  have before : s.secondClosed.sweep = s.sweep := s.secondClosed_move.onlyChanges .sweep (by decide)
  exact ⟨wind, state, list, by rw [State.windTick_eq, sweep, before]⟩

/-! ## Adding and removing a cause as one event -/

theorem State.reportClose_of_same {before : SweepScheduler} (h : s.sweep.close = before.close) : s.reportClose before = s :=
  if_pos h

theorem State.reportClose_frame (s : State) (before : SweepScheduler) : s.OnlyChanges (s.reportClose before) [.wind, .path] :=
  (Move.reportClose (q := true) s before).onlyChanges

theorem State.reportClose_sweep (s : State) (before : SweepScheduler) : (s.reportClose before).sweep = s.sweep :=
  s.reportClose_frame before .sweep (by decide)

theorem State.sweepAdd_of_held {c : Cause} (h : s.sweep.has c = true) (src : SweepSource) : s.sweepAdd c src = s := if_pos h

theorem State.sweepAdd_of_new {c : Cause} (h : s.sweep.has c = false) (src : SweepSource) :
    s.sweepAdd c src = ((s.addCause c).finishSweep s src).reportClose s.sweep := if_neg (by simp [h])

theorem State.sweepRemove_of_free {c : Cause} (h : s.sweep.has c = false) (src : SweepSource) : s.sweepRemove c src = s :=
  if_neg (by simp [h])

theorem State.sweepRemove_of_held {c : Cause} (h : s.sweep.has c = true) (src : SweepSource) :
    s.sweepRemove c src = ((s.removeCause c).finishSweep s src).reportClose s.sweep := if_pos h

theorem State.sweepAdd_causes (s : State) (c : Cause) (src : SweepSource) : ∃ state list, (s.sweepAdd c src).sweep =
    { s.sweep.setCause true c with state := state, list := list } := by
  cases has : s.sweep.has c with
  | true => exact ⟨s.sweep.state, s.sweep.list, by rw [State.sweepAdd_of_held has, SweepScheduler.setCause_of_has has]⟩
  | false =>
      exact ⟨_, _, by rw [State.sweepAdd_of_new has, State.reportClose_sweep, State.finishSweep_sweep, State.addCause_sweep has]⟩

/-- The scheduler's state is the one its causes, its list and the level give, once it has ended its part. -/
theorem State.finishSweep_state (s before : State) (src : SweepSource) :
    (s.finishSweep before src).sweep.state = (s.finishSweep before src).sweepStateNow := by
  have sweep := s.finishSweep_sweep before src
  have wind : (s.finishSweep before src).wind = s.wind := s.finishSweep_frame before src .wind (by decide)
  have envelope : (s.finishSweep before src).envelope = s.envelope := s.finishSweep_frame before src .envelope (by decide)
  rw [sweep]
  unfold State.sweepStateNow State.unloadList State.present
  rw [sweep, wind, envelope]
  rfl

theorem State.sweepStateNow_congr (sweep : t.sweep = s.sweep) (level : t.wind.level = s.wind.level)
    (envelope : t.envelope = s.envelope) : t.sweepStateNow = s.sweepStateNow := by
  unfold State.sweepStateNow State.unloadList State.present
  rw [sweep, level, envelope]

theorem State.reportClose_state (s : State) (before : SweepScheduler) (h : s.sweep.state = s.sweepStateNow) :
    (s.reportClose before).sweep.state = (s.reportClose before).sweepStateNow := by
  have told : Move true [.wind, .path] s (s.reportClose before) := .reportClose s before
  rw [State.sweepStateNow_congr (s.reportClose_sweep before) told.inputs.level told.inputs.envelope, s.reportClose_sweep]
  exact h

/-! ## The ride clock -/

theorem ClockUnit.fires_iff {k : ClockUnit} : k.fires = true ↔
    k.set = true ∧ k.alarmOn = true ∧ k.tick.time = k.alarmHour * 3600 + k.alarmMinute * 60 := by
  simp only [ClockUnit.fires, ClockUnit.tick, ClockUnit.alarmSecond, Bool.and_eq_true, and_assoc]
  refine and_congr_right fun set => and_congr_right fun _ => ?_
  rw [if_pos set]
  exact decide_eq_true_iff

theorem nextSecond_of_lt {time : Nat} (h : time < 86399) : nextSecond time = time + 1 :=
  Nat.mod_eq_of_lt (show time + 1 < 86400 by omega)

theorem ClockUnit.tick_of_unset {k : ClockUnit} (h : k.set = false) : k.tick = k := if_neg (by simp [h])

theorem ClockUnit.tick_of_set {k : ClockUnit} (h : k.set = true) : k.tick = { k with time := nextSecond k.time } := if_pos h

/-- What a ride-second tick does to the ride clock and to the causes, at their own taker. -/
theorem State.clockTick_effect (s : State) : s.clockTick.clock = s.clock.tick ∧ ∃ state list, s.clockTick.sweep =
    { s.sweep with close := s.sweep.close || s.clock.fires, state := state, list := list } := by
  unfold State.clockTick
  dsimp only
  split
  · next fires =>
    obtain ⟨state, list, sweep⟩ := (s.withClock s.clock.tick).postClose.sweepAdd_causes .close .alarm
    have clock : ((s.withClock s.clock.tick).postClose.sweepAdd .close .alarm).clock = (s.withClock s.clock.tick).postClose.clock :=
      (Move.sweepAdd (q := true) _ .close .alarm).onlyChanges .clock (by decide)
    refine ⟨by rw [clock, State.postClose, State.post_clock, State.withClock_clock], state, list, ?_⟩
    rw [sweep, State.postClose, State.post_sweep, State.withClock_sweep, fires, Bool.or_true]
    rfl
  · next quiet => exact ⟨rfl, s.sweep.state, s.sweep.list, by rw [Bool.eq_false_iff.2 quiet, Bool.or_false]; rfl⟩

theorem State.secondTick_clockFirst (s : State) : s.secondTick true = s.clockTick.windTick := if_pos rfl

theorem State.secondTick_windFirst (s : State) : s.secondTick false = s.windTick.clockTick := if_neg nofun

/-- The same at both takers, in either order. -/
theorem State.secondTick_effect (s : State) (clockFirst : Bool) : (s.secondTick clockFirst).clock = s.clock.tick ∧
    (s.secondTick clockFirst).sweep.operator = s.sweep.operator ∧
    (s.secondTick clockFirst).sweep.close = (s.sweep.close || s.clock.fires) := by
  have wind (u : State) : u.windTick.clock = u.clock ∧ u.windTick.sweep.operator = u.sweep.operator ∧
      u.windTick.sweep.close = u.sweep.close := by
    obtain ⟨_, _, _, sweep⟩ := u.windTick_causes
    rw [sweep]
    exact ⟨(Move.windTick u).onlyChanges .clock (by decide), rfl, rfl⟩
  have clock (u : State) : u.clockTick.clock = u.clock.tick ∧ u.clockTick.sweep.operator = u.sweep.operator ∧
      u.clockTick.sweep.close = (u.sweep.close || u.clock.fires) := by
    obtain ⟨clock, _, _, sweep⟩ := u.clockTick_effect
    rw [sweep]
    exact ⟨clock, rfl, rfl⟩
  cases clockFirst with
  | true =>
      obtain ⟨windClock, windOperator, windClose⟩ := wind s.clockTick
      obtain ⟨clockClock, clockOperator, clockClose⟩ := clock s
      rw [s.secondTick_clockFirst]
      exact ⟨windClock.trans clockClock, windOperator.trans clockOperator, windClose.trans clockClose⟩
  | false =>
      obtain ⟨windClock, windOperator, windClose⟩ := wind s
      obtain ⟨clockClock, clockOperator, clockClose⟩ := clock s.windTick
      rw [windClock] at clockClock
      rw [windClose, windClock] at clockClose
      rw [s.secondTick_windFirst]
      exact ⟨clockClock, clockOperator.trans windOperator, clockClose⟩

/-- Settles O40: neither taker of the tick touches what the other does to the clock and to CLOSE. -/
theorem rideSecondAdvancesTheClock : Obligations.RideSecondAdvancesTheClock := by
  intro clockFirst s running
  obtain ⟨clock, operator, close⟩ := s.secondTick_effect clockFirst
  refine ⟨_, congrArg Host.Outcome.next (State.takeEvent_running running _), ?_, ?_, ?_, ?_, ?_, ?_⟩
  · exact ((Move.secondTick s clockFirst).onlyChanges.mono (by decide)).trans ((State.close_frame _).mono (by decide))
  · intro unset
    rw [State.close_clock, clock, ClockUnit.tick_of_unset unset]
  · intro set early
    rw [State.close_clock, clock, ClockUnit.tick_of_set set, nextSecond_of_lt early]
  · intro set last
    rw [State.close_clock, clock, ClockUnit.tick_of_set set, last]
    rfl
  · rw [State.close_sweep, operator]
  · rw [State.close_sweep, State.close_clock, close, clock, Bool.or_eq_true, ClockUnit.fires_iff]

/-! ## The end of the hold-down and the operator floor -/

theorem State.close_inputs (s : State) : s.SameInputs s.close := .of_frame (s.close_frame.mono (by decide))

theorem State.changeLevel_frame (s : State) (l : Level) : s.OnlyChanges (s.changeLevel l) levelBlocks :=
  (Move.changeLevel s l).onlyChanges

/-- Settles O45: a clear level with its countdown at its end is changed to the one below. -/
theorem holdDownEndLowersTheLevel : Obligations.HoldDownEndLowersTheLevel := by
  intro s running
  have event (u : State) (fall : s.holdDownFall = u) : exec .holdDownExpiry s = .next u.close :=
    (congrArg Host.Outcome.next (State.takeEvent_running running _)).trans (by rw [fall])
  refine ⟨fun above clear ended => ?_, fun stays => event s (if_neg ?_)⟩
  · have fall : s.holdDownFall = s.changeLevel s.wind.level.down := if_pos ⟨above, clear, ended⟩
    obtain ⟨_, wind⟩ := s.changeLevel_wind s.wind.level.down
    obtain ⟨_, _, sweep⟩ := s.changeLevel_causes s.wind.level.down
    obtain ⟨forward, reverse, -⟩ := (State.close_inputs _).ceilingsAgree (s.changeLevel_ceilings s.wind.level.down)
    refine ⟨_, event _ fall, ?_, ?_, ?_, ?_, forward, reverse, ?_,
      ((s.changeLevel_frame _).mono (by decide)).trans ((State.close_frame _).mono (by decide))⟩ <;>
      simp only [State.close_wind, State.close_sweep, wind, sweep, decide_eq_true_eq]
    cases level : s.wind.level <;> first | exact absurd level above | rfl
  · rintro ⟨above, clear, ended⟩
    rcases stays with opened | notClear | running
    · exact above opened
    · rw [clear] at notClear; cases notClear
    · omega

/-- The least level the floors allow, with operator floor `l`. -/
theorem State.floorLevel_of_floor (s : State) (l : Level) :
    (s.withWind { s.wind with floor := l }).floorLevel.code = max s.wind.level.code
      (if s.belowQuorum = true ∧ l.code < s.active.floorsRecord.blind.code then s.active.floorsRecord.blind else l).code := by
  have asked := (s.withWind { s.wind with floor := l }).floorLevel_code
  have quorum : (s.withWind { s.wind with floor := l }).belowQuorum = s.belowQuorum := rfl
  rw [quorum, State.withWind_active, State.withWind_wind] at asked
  dsimp only at asked
  split_ifs with few
  · rw [asked, if_pos few.1, max_eq_left (few.2.le.trans (le_max_right _ _))]
  · by_cases below : s.belowQuorum = true
    · rw [asked, if_pos below, max_assoc, max_eq_right (Nat.not_lt.1 (not_and.1 few below))]
    · rw [asked, if_neg below, Nat.max_zero]

/-- Settles O47: the floors are applied with the floor the request names. -/
theorem operatorFloorRaisesTheLevel : Obligations.OperatorFloorRaisesTheLevel := by
  intro who level s takes
  refine ⟨fun l listed => ?_, fun beyond => exec_replied rfl rfl takes ?_⟩
  · let floored := s.withWind { s.wind with floor := l }
    have asked := s.floorLevel_of_floor l
    generalize least : (if s.belowQuorum = true ∧ l.code < s.active.floorsRecord.blind.code then s.active.floorsRecord.blind
      else l) = low at asked
    obtain ⟨_, _, wind⟩ := floored.applyFloors_wind
    have floor : floored.applyFloors.wind.floor = l := by rw [wind]; rfl
    have did : s.doSetOperatorFloor level = (floored.applyFloors,
        { outcome := .done, data := [byte l.code, byte floored.applyFloors.wind.level.code] }) := by
      unfold State.doSetOperatorFloor
      rw [listed]
      dsimp only
      rw [show ((s.withWind { s.wind with floor := l }).applyFloors).wind.floor = l from floor]
    refine ⟨floored.applyFloors, exec_replied rfl rfl takes did, floor, by rw [wind]; rfl, fun high => ?_, fun raised => ?_,
      (((Move.withWind (q := false) (bs := [.wind]) s _ (by decide) (by simp)).onlyChanges).mono (by decide)).trans
        (Move.applyFloors _).onlyChanges⟩
    · rw [least] at high
      exact State.raiseLevel_of_le (s := floored) (asked.trans (max_eq_left high)).le
    · rw [least] at raised ⊢
      have target : floored.floorLevel = low := Level.code_injective (asked.trans (max_eq_right raised.le))
      have change : floored.applyFloors = floored.changeLevel low := by
        rw [State.applyFloors, target]
        exact State.raiseLevel_of_lt raised
      rw [change]
      obtain ⟨_, changed⟩ := floored.changeLevel_wind low
      obtain ⟨_, _, sweep⟩ := floored.changeLevel_causes low
      obtain ⟨forward, reverse, -⟩ := floored.changeLevel_ceilings low
      exact ⟨by rw [changed], by rw [changed]; rfl, forward, reverse, by rw [sweep, decide_eq_true_eq]⟩
  · have unlisted : Level.ofCode level.toNat = none := by
      unfold Level.ofCode
      split <;> first | rfl | omega
    unfold State.handleListed State.args1 State.doSetOperatorFloor
    dsimp only
    rw [unlisted]
    rfl

end Sys2Proof.Machine
end

section
/-! PROOFS. The steps of a channel, the sweep requests and the requests on a cabin (R64, R65, R97, R98, R142, R143, R150, R154,
R155). -/

namespace Sys2Proof.Machine

variable {s t : State}

/-! ## A channel's step of its own -/

theorem State.channelStep_of_step {c : ChannelIx} {st : ChannelState} (closes : (s.wind.channels[c]).closeSecond.state = st)
    (new : (s.wind.channels[c]).state ≠ st) :
    s.channelStep c st = (s.setChannel c (s.wind.channels[c]).closeSecond).recomputeWind.applyFloors := if_pos ⟨closes, new⟩

/-- What a step of a channel brings: that channel's second is closed, the others are kept, and the live count follows. -/
theorem State.channelStep_spec {c : ChannelIx} {st : ChannelState} (closes : (s.wind.channels[c]).closeSecond.state = st)
    (new : (s.wind.channels[c]).state ≠ st) :
    (s.channelStep c st).wind.channels[c] = (s.wind.channels[c]).closeSecond ∧
      (∀ e : ChannelIx, e ≠ c → (s.channelStep c st).wind.channels[e] = s.wind.channels[e]) ∧
      (s.channelStep c st).wind.live = (s.channelStep c st).liveChannels.length := by
  let v := (s.setChannel c (s.wind.channels[c]).closeSecond).recomputeWind
  have channels : v.applyFloors.wind.channels = s.wind.channels.set c (s.wind.channels[c]).closeSecond := by
    rw [State.applyFloors_channels, State.recomputeWind_channels, State.setChannel_wind]
  have live : v.applyFloors.wind.live = v.wind.live := by
    obtain ⟨_, _, wind⟩ := v.applyFloors_wind
    rw [wind]
  rw [State.channelStep_of_step closes new]
  refine ⟨by rw [channels]; simp, fun e other => ?_, ?_⟩
  · have apart : c.val ≠ e.val := fun same => other (Fin.ext same.symm)
    rw [channels]
    simp [apart]
  · rw [live, State.liveChannels_congr v.applyFloors_channels]
    rfl

theorem exec_channelStale (running : s.phase = .running) (c : ChannelIx) :
    exec (.channelStale c) s = .next (s.channelStep c .stale).close := congrArg _ (State.takeEvent_running running _)

theorem exec_channelLive (running : s.phase = .running) (c : ChannelIx) :
    exec (.channelLive c) s = .next (s.channelStep c .live).close := congrArg _ (State.takeEvent_running running _)

/-- Settles O46: R96's table on the third empty second and on the third pushed one. -/
theorem channelStepsOfATick : Obligations.ChannelStepsOfATick := by
  intro c s running x
  have frame (st : ChannelState) : s.OnlyChanges (s.channelStep c st).close [.wind, .governor, .sweep, .cabins, .path, .notices] :=
    (Move.channelStep s c st).onlyChanges.trans ((State.close_frame _).mono (by decide))
  refine ⟨fun takesPart empty third => ?_, fun warming second pushed => ?_⟩
  · have closed : x.closeSecond = x.goStale.clearBucket := by
      unfold Channel.closeSecond
      rcases takesPart with state | state <;> simp [state, empty, third]
    have new : x.state ≠ .stale := by rcases takesPart with state | state <;> rw [state] <;> nofun
    obtain ⟨channel, others, live⟩ := State.channelStep_spec (s := s) (c := c) (st := .stale) (by rw [closed]; rfl) new
    refine ⟨_, exec_channelStale running c, ?_, fun e other => ?_, ?_, frame .stale⟩
    · rw [State.close_wind, channel, closed]
      rfl
    · rw [State.close_wind]
      exact others e other
    · rw [State.liveChannels_congr (s := s.channelStep c .stale) (by rw [State.close_wind]), State.close_wind]
      exact live
  · have closed : x.closeSecond =
        ({ x with stale := 0 }.push { max := x.bucketMax, mean := x.bucketSum / x.bucketCount }).clearBucket := by
      unfold Channel.closeSecond
      simp [warming, pushed]
    have state : x.closeSecond.state = .live ∧ x.closeSecond.warm = 3 := by
      rw [closed]
      simp [Channel.clearBucket, Channel.push, warming, second]
    have new : x.state ≠ .live := by rw [warming]; nofun
    obtain ⟨channel, others, live⟩ := State.channelStep_spec (s := s) (c := c) (st := .live) state.1 new
    refine ⟨_, exec_channelLive running c, ?_⟩
    rw [State.liveChannels_congr (s := s.channelStep c .live) (by rw [State.close_wind]), State.close_wind, channel]
    refine ⟨state.1, state.2, ?_, ?_, ?_, ?_, others, live, frame .live⟩ <;>
      rw [show (s.wind.channels[c]).closeSecond = x.closeSecond from rfl, closed] <;>
      simp [Channel.clearBucket, Channel.push, warming, pushRing]

/-! ## The sweep requests -/

theorem State.joining_le {x : Nat} (wheel : s.envelope.count ≤ 64) (h : x ∈ s.joining) : x ≤ 64 :=
  (State.mem_joining.1 h).1.2.trans wheel

theorem State.sweepStateNow_of_uncaused (h : s.sweep.caused = false) : s.sweepStateNow = .idle := by
  simp [State.sweepStateNow, h]

/-- What the taking out of a cause brings, for each of the three. -/
theorem State.sweepRemove_spec {c : Cause} (on : s.sweep.has c = true) (src : SweepSource) :
    ((s.sweep.setCause false c).caused = false → (s.sweepRemove c src).sweep =
        { s.sweep.setCause false c with list := [], state := .idle } ∧
      ∀ x, 1 ≤ x → x ≤ 64 → ((s.sweepRemove c src).cabin x).mark = none ∧ ((s.sweepRemove c src).cabin x).passes = 0) ∧
    ((s.sweep.setCause false c).caused = true →
      (s.sweepRemove c src).sweep = { s.sweep.setCause false c with state := (s.sweepRemove c src).sweep.state } ∧
      (s.sweepRemove c src).cabins = s.cabins ∧ (s.sweepRemove c src).sweep.state = (s.sweepRemove c src).sweepStateNow) := by
  have sweep := State.finishSweep_sweep (s.removeCause c) s src
  have state := State.finishSweep_state (s.removeCause c) s src
  rw [State.sweepRemove_of_held on]
  generalize finished : (s.removeCause c).finishSweep s src = u at sweep state
  have cabins : u.cabins = (s.removeCause c).cabins := finished ▸ State.finishSweep_frame _ _ _ .cabins (by decide)
  have told : (u.reportClose s.sweep).cabins = u.cabins := u.reportClose_frame s.sweep .cabins (by decide)
  rw [u.reportClose_sweep s.sweep]
  refine ⟨fun last => ⟨?_, fun x low high => ?_⟩, fun others => ⟨?_, ?_, ?_⟩⟩
  · have uncaused : (s.removeCause c).sweep.caused = false := by
      rw [State.removeCause_of_last on last, State.clearList_sweep]
      exact last
    rw [sweep, State.sweepStateNow_of_uncaused uncaused, State.removeCause_of_last on last, State.clearList_sweep,
      State.withSweep_sweep]
  · rw [State.cabin_congr told, State.cabin_congr cabins, State.removeCause_of_last on last, State.clearList_cabin low high]
    exact ⟨rfl, rfl⟩
  · rw [sweep, State.removeCause_of_others on others, State.withSweep_sweep]
  · rw [told, cabins, State.removeCause_of_others on others, State.withSweep_cabins]
  · rw [← u.reportClose_sweep s.sweep]
    exact u.reportClose_state s.sweep state

/-- A cause other than CLOSE tells the beacons nothing. -/
theorem State.sweepRemove_frame {c : Cause} (on : s.sweep.has c = true) (src : SweepSource) (other : c ≠ .close) :
    s.OnlyChanges (s.sweepRemove c src) [.sweep, .cabins, .notices] := by
  obtain ⟨list, sweep⟩ := s.removeCause_causes c
  have close : ((s.removeCause c).finishSweep s src).sweep.close = s.sweep.close := by
    rw [State.finishSweep_sweep, sweep]
    cases c <;> first | rfl | exact absurd rfl other
  rw [State.sweepRemove_of_held on, State.reportClose_of_same close]
  exact ((Move.removeCause (q := true) s c).onlyChanges.mono (by decide)).trans ((State.finishSweep_frame _ _ _).mono (by decide))

theorem State.sweepAdd_of_operator (off : s.sweep.operator = false) (src : SweepSource) :
    s.sweepAdd .operator src = (s.addCause .operator).finishSweep s src := by
  have close : ((s.addCause .operator).finishSweep s src).sweep.close = s.sweep.close := by
    rw [State.finishSweep_sweep, State.addCause_sweep (c := .operator) off]
    rfl
  rw [State.sweepAdd_of_new (c := .operator) off, State.reportClose_of_same close]

/-- Settles O48: the cause enters or leaves the set, and the reply shows the sweep as it then stands. -/
theorem sweepRequestsMoveTheCauses : Obligations.SweepRequestsMoveTheCauses := by
  intro who s takes wheel
  have begins {u : State} (did : s.sweepAdd .operator .request = u) :
      exec (.beginSweep who) s = .next (u.replied who .done u.sweepData).close :=
    exec_replied rfl rfl takes (congrArg State.sweepAnswer did)
  have ends {u : State} (did : s.sweepRemove .operator .request = u) :
      exec (.endSweep who) s = .next (u.replied who .done u.sweepData).close :=
    exec_replied rfl rfl takes (congrArg State.sweepAnswer did)
  have opens {u : State} (did : s.sweepRemove .close .request = u) :
      exec (.openBoarding who) s = .next (u.replied who .done u.sweepData).close :=
    exec_replied rfl rfl takes (congrArg State.sweepAnswer did)
  refine ⟨fun on => begins (State.sweepAdd_of_held (c := .operator) on _),
    fun off => ends (State.sweepRemove_of_free (c := .operator) off _),
    fun off => opens (State.sweepRemove_of_free (c := .close) off _), fun off => ?_, fun on => ?_, fun on => ?_⟩
  · refine ⟨_, begins (State.sweepAdd_of_operator off _), ?_⟩
    have sweep := State.finishSweep_sweep (s.addCause .operator) s .request
    rw [State.addCause_sweep (c := .operator) off] at sweep
    refine ⟨by rw [sweep]; rfl, by rw [sweep]; rfl, by rw [sweep]; rfl, by rw [sweep]; rfl, by rw [sweep], fun x joins => ?_,
      State.finishSweep_state _ _ _, ?_⟩
    · rw [State.finishSweep_cabin, State.addCause_mark (c := .operator) off joins (State.joining_le wheel joins)]
    · exact ((Move.addCause (q := true) s _).onlyChanges.mono (by decide)).trans ((State.finishSweep_frame _ _ _).mono (by decide))
  · obtain ⟨last, others⟩ := State.sweepRemove_spec (s := s) (c := .operator) on .request
    have caused : (s.sweep.setCause false .operator).caused = (s.sweep.wind || s.sweep.close) := Bool.or_false _
    rw [caused] at last others
    refine ⟨_, ends rfl, ?_⟩
    have causes : (s.sweepRemove .operator .request).sweep.operator = false ∧
        (s.sweepRemove .operator .request).sweep.wind = s.sweep.wind ∧
        (s.sweepRemove .operator .request).sweep.close = s.sweep.close ∧
        (s.sweepRemove .operator .request).sweep.served = s.sweep.served := by
      cases some : s.sweep.wind || s.sweep.close with
      | true => rw [(others some).1]; exact ⟨rfl, rfl, rfl, rfl⟩
      | false => rw [(last some).1]; exact ⟨rfl, rfl, rfl, rfl⟩
    obtain ⟨operator, wind, close, served⟩ := causes
    refine ⟨operator, wind, close, served, fun noWind noClose => ?_, fun some => ?_,
      State.sweepRemove_frame (c := .operator) on _ nofun⟩
    · obtain ⟨sweep, cabins⟩ := last (by rw [noWind, noClose]; rfl)
      exact ⟨by rw [sweep], by rw [sweep], cabins⟩
    · obtain ⟨sweep, cabins, state⟩ := others (by simpa using some)
      exact ⟨by rw [sweep]; rfl, cabins, state⟩
  · obtain ⟨last, others⟩ := State.sweepRemove_spec (s := s) (c := .close) on .request
    have caused : (s.sweep.setCause false .close).caused = (s.sweep.wind || s.sweep.operator) :=
      congrArg (· || s.sweep.operator) (Bool.or_false _)
    rw [caused] at last others
    obtain ⟨sent, windState⟩ := s.sweepRemove_wind .close .request
    refine ⟨_, opens rfl, ?_⟩
    have causes : (s.sweepRemove .close .request).sweep.close = false ∧
        (s.sweepRemove .close .request).sweep.wind = s.sweep.wind ∧
        (s.sweepRemove .close .request).sweep.operator = s.sweep.operator ∧
        (s.sweepRemove .close .request).sweep.served = s.sweep.served := by
      cases some : s.sweep.wind || s.sweep.operator with
      | true => rw [(others some).1]; exact ⟨rfl, rfl, rfl, rfl⟩
      | false => rw [(last some).1]; exact ⟨rfl, rfl, rfl, rfl⟩
    obtain ⟨close, wind, operator, served⟩ := causes
    refine ⟨close, wind, operator, served, fun noWind noOperator => ?_, fun some => ?_, by rw [windState],
      (Move.sweepRemove (q := true) s _ _).onlyChanges⟩
    · obtain ⟨sweep, cabins⟩ := last (by rw [noWind, noOperator]; rfl)
      exact ⟨by rw [sweep], by rw [sweep], cabins⟩
    · obtain ⟨sweep, cabins, state⟩ := others (by simpa using some)
      exact ⟨by rw [sweep]; rfl, cabins, state⟩

/-! ## Requests on a cabin -/

theorem State.withCabin_frame (s : State) (c : Nat) (x : Cabin) : s.OnlyChanges (s.withCabin c x) [.cabins] :=
  (Move.withCabin (q := false) s c x (by decide) (by simp)).onlyChanges

theorem State.postCabin_frame (s : State) (c : Nat) (e : CabinCause) : s.OnlyChanges (s.postCabin c e) [.notices] :=
  State.post_frame _ _ _ _ _ _ _ _

/-- Before the scheduler hears of it, a request on a cabin has replaced that cabin's record and perhaps posted a notice. -/
structure State.Recorded (s u : State) (c : Nat) (x : Cabin) : Prop where
  self  : u.cabin c = x
  other : ∀ d, d ≠ c → u.cabin d = s.cabin d
  frame : s.OnlyChanges u [.cabins, .notices]

theorem State.recorded {c : Nat} (low : 1 ≤ c) (high : c ≤ 64) (x : Cabin) : s.Recorded (s.withCabin c x) c x :=
  ⟨State.withCabin_cabin_self low high x, fun _ other => State.withCabin_cabin_of_ne other x, (s.withCabin_frame c x).mono (by decide)⟩

theorem State.Recorded.postCabin {u : State} {c : Nat} {x : Cabin} (h : s.Recorded u c x) (d : Nat) (e : CabinCause) :
    s.Recorded (u.postCabin d e) c x := by
  have cabins : (u.postCabin d e).cabins = u.cabins := u.postCabin_frame d e .cabins (by decide)
  exact ⟨(State.cabin_congr cabins c).trans h.self, fun y other => (State.cabin_congr cabins y).trans (h.other y other),
    h.frame.trans ((u.postCabin_frame d e).mono (by decide))⟩

section
variable {u : State} {c : Nat} {x : Cabin}

/-- The cabin leaves the list, and the scheduler ends its part. -/
theorem State.Recorded.leaves (h : s.Recorded u c x) (low : 1 ≤ c) (high : c ≤ 64) (src : SweepSource) :
    let v := (u.removeCabin c).finishSweep u src
    v.cabin c = { x with mark := none } ∧ v.sweep.list = s.sweep.list.filter (· ≠ c) ∧ (∀ d, d ≠ c → v.cabin d = s.cabin d) ∧
      s.OnlyChanges v [.cabins, .sweep, .notices] := by
  have sweep : u.sweep = s.sweep := h.frame .sweep (by decide)
  refine ⟨?_, ?_, fun d other => ?_, ?_⟩
  · rw [State.finishSweep_cabin, State.removeCabin_cabin, if_pos ⟨rfl, low, high⟩, h.self]
  · rw [State.finishSweep_sweep, State.removeCabin_sweep, sweep]
  · rw [State.finishSweep_cabin, State.removeCabin_cabin, if_neg fun k => other k.1, h.other d other]
  · exact (h.frame.mono (by decide)).trans (((Move.removeCabin (q := true) u c).onlyChanges.mono (by decide)).trans
      ((State.finishSweep_frame _ _ _).mono (by decide)))

/-- The cabin joins the list, and the scheduler ends its part. -/
theorem State.Recorded.joins (h : s.Recorded u c x) (low : 1 ≤ c) (high : c ≤ 64) (src : SweepSource) :
    let v := (u.appendCabin c).finishSweep u src
    v.cabin c = { x with mark := some .pending } ∧ v.sweep.list = s.sweep.list ++ [c] ∧
      (∀ d, d ≠ c → v.cabin d = s.cabin d) ∧ s.OnlyChanges v [.cabins, .sweep, .notices] := by
  have sweep : u.sweep = s.sweep := h.frame .sweep (by decide)
  refine ⟨?_, ?_, fun d other => ?_, ?_⟩
  · rw [State.finishSweep_cabin, State.appendCabin_cabin, if_pos ⟨rfl, low, high⟩, h.self]
  · rw [State.finishSweep_sweep, State.appendCabin_sweep, sweep]
  · rw [State.finishSweep_cabin, State.appendCabin_cabin, if_neg fun k => other k.1, h.other d other]
  · exact (h.frame.mono (by decide)).trans (((Move.appendCabin (q := true) u c).onlyChanges.mono (by decide)).trans
      ((State.finishSweep_frame _ _ _).mono (by decide)))

theorem State.Recorded.listed (h : s.Recorded u c x) : u.listed c = x.mark.isSome := by rw [State.listed, h.self]

end

/-- What Set Service does to a cabin of the wheel. -/
theorem State.setService_spec {c : Nat} (low : 1 ≤ c) (high : c ≤ 64) (v : Bool) :
    let u := s.setService c v
    let leaves := v = false ∧ (s.cabin c).inService = true ∧ s.listed c = true
    u.cabin c = { s.cabin c with inService := v, mark := (u.cabin c).mark } ∧
      (leaves → (u.cabin c).mark = none ∧ u.sweep.list = s.sweep.list.filter (· ≠ c)) ∧
      (¬ leaves → (u.cabin c).mark = (s.cabin c).mark ∧ u.sweep = s.sweep) ∧
      (∀ x, x ≠ c → u.cabin x = s.cabin x) ∧ s.OnlyChanges u [.cabins, .sweep, .notices] := by
  intro u leaves
  have recorded := (State.recorded (s := s) low high { s.cabin c with inService := v }).postCabin c .request
  by_cases same : v = (s.cabin c).inService
  · have unchanged : u = s := if_pos same
    have stays : ¬ leaves := fun ⟨out, inService, _⟩ => by rw [← same, out] at inService; cases inService
    rw [unchanged]
    exact ⟨by rw [same], fun h => absurd h stays, fun _ => ⟨rfl, rfl⟩, fun _ _ => rfl, .refl _ _⟩
  · have told : u = State.sweepService _ c := if_neg same
    have heard := recorded.listed
    have service := congrArg Cabin.inService recorded.self
    generalize (s.withCabin c { s.cabin c with inService := v }).postCabin c .request = w at recorded told heard service
    by_cases out : leaves
    · have left : u = (w.removeCabin c).finishSweep w .cabin := by
        rw [told, State.sweepService, service, heard]
        exact if_pos (by simpa [out.1, State.listed] using out.2.2)
      obtain ⟨cabin, list, others, frame⟩ := recorded.leaves low high .cabin
      rw [← left] at cabin list others frame
      exact ⟨by rw [cabin], fun _ => ⟨by rw [cabin], list⟩, fun h => absurd out h, others, frame⟩
    · have stayed : u = w := by
        rw [told, State.sweepService, service, heard]
        refine if_neg fun h => out ?_
        simp only [Bool.and_eq_true, Bool.not_eq_true'] at h
        refine ⟨h.1, ?_, h.2⟩
        cases inService : (s.cabin c).inService with
        | true => rfl
        | false => exact absurd (h.1.trans inService.symm) same
      rw [stayed]
      exact ⟨by rw [recorded.self], fun h => absurd h out, fun _ => ⟨by rw [recorded.self], recorded.frame .sweep (by decide)⟩,
        recorded.other, recorded.frame.mono (by decide)⟩

/-- What Set Occupancy does to a cabin of the wheel. -/
theorem State.setOccupancy_spec {c n : Nat} (low : 1 ≤ c) (high : c ≤ 64) :
    let u := s.setOccupancy c n
    let leaves := n = 0 ∧ s.listed c = true
    let joins := n ≠ 0 ∧ s.listed c = false ∧ (s.cabin c).inService = true ∧ s.sweep.state ≠ .idle
    u.cabin c = { s.cabin c with
      occupancy := n, uncertain := false, assist := (s.cabin c).assist && decide (n ≠ 0), mark := (u.cabin c).mark } ∧
      (leaves → (u.cabin c).mark = none ∧ u.sweep.list = s.sweep.list.filter (· ≠ c)) ∧
      (joins → (u.cabin c).mark = some .pending ∧ u.sweep.list = s.sweep.list ++ [c]) ∧
      (¬ leaves → ¬ joins → (u.cabin c).mark = (s.cabin c).mark ∧ u.sweep = s.sweep) ∧
      (∀ x, x ≠ c → u.cabin x = s.cabin x) ∧ s.OnlyChanges u [.cabins, .sweep, .notices] := by
  intro u leaves joins
  have assist : (if n = 0 then false else (s.cabin c).assist) = ((s.cabin c).assist && decide (n ≠ 0)) := by
    by_cases zero : n = 0 <;> simp [zero]
  let record : Cabin := { s.cabin c with
    occupancy := n, uncertain := false, assist := (s.cabin c).assist && decide (n ≠ 0) }
  have written := State.recorded (s := s) low high record
  have told : ∃ w, s.Recorded w c record ∧ u = w.sweepOccupancy c := by
    have unfolded : u = State.sweepOccupancy (if record = s.cabin c then s.withCabin c record
        else (s.withCabin c record).postCabin c .request) c := by
      simp only [u, State.setOccupancy, assist, record]
    split at unfolded
    · exact ⟨_, written, unfolded⟩
    · exact ⟨_, written.postCabin c .request, unfolded⟩
  obtain ⟨w, recorded, told⟩ := told
  have heard : w.listed c = s.listed c := recorded.listed
  have sweep : w.sweep = s.sweep := recorded.frame .sweep (by decide)
  have unfolded : u = if n = 0 then (if s.listed c then (w.removeCabin c).finishSweep w .cabin else w)
      else if !s.listed c && (s.cabin c).inService && decide (s.sweep.state ≠ .idle) then (w.appendCabin c).finishSweep w .cabin
      else w := by
    rw [told, State.sweepOccupancy, recorded.self, heard, sweep]
  by_cases out : leaves
  · rw [if_pos out.1, if_pos out.2] at unfolded
    obtain ⟨cabin, list, others, frame⟩ := recorded.leaves low high .cabin
    rw [← unfolded] at cabin list others frame
    exact ⟨by rw [cabin], fun _ => ⟨by rw [cabin], list⟩, fun h => absurd out.1 h.1, fun h => absurd out h, others, frame⟩
  · by_cases new : joins
    · obtain ⟨some, off, inService, inForce⟩ := new
      rw [if_neg some, if_pos (by simp [off, inService, inForce])] at unfolded
      obtain ⟨cabin, list, others, frame⟩ := recorded.joins low high .cabin
      rw [← unfolded] at cabin list others frame
      exact ⟨by rw [cabin], fun h => absurd h out, fun _ => ⟨by rw [cabin], list⟩,
        fun _ h => absurd ⟨some, off, inService, inForce⟩ h, others, frame⟩
    · have stayed : u = w := by
        rw [unfolded]
        split
        · next zero => exact if_neg fun on => out ⟨zero, on⟩
        · next some =>
          refine if_neg fun h => new ?_
          simp only [Bool.and_eq_true, Bool.not_eq_true', decide_eq_true_eq] at h
          exact ⟨some, h.1.1, h.1.2, h.2⟩
      rw [stayed]
      exact ⟨by rw [recorded.self], fun h => absurd h out, fun h => absurd h new,
        fun _ _ => ⟨by rw [recorded.self], sweep⟩, recorded.other, recorded.frame.mono (by decide)⟩

/-- Settles O49: the range tests, and the two operations on a cabin of the wheel. -/
theorem cabinRequestsActOnTheCabin : Obligations.CabinRequestsActOnTheCabin := by
  intro who cabin s takes wheel
  have named : s.present cabin.toNat = true ↔ 1 ≤ cabin.toNat ∧ cabin.toNat ≤ s.envelope.count := State.present_iff
  refine ⟨fun service => ⟨fun low ofWheel listed => ?_, fun out => exec_replied rfl rfl takes (if_neg ?_)⟩,
    fun occupancy => ⟨fun low ofWheel small => ?_, fun out => exec_replied rfl rfl takes (if_neg ?_)⟩⟩
  · have did : s.doSetService cabin service = (s.setService cabin.toNat (service == 1), Answer.bare .done) :=
      if_pos ⟨named.2 ⟨low, ofWheel⟩, listed⟩
    have isOut : (service == 1) = false ↔ service = 2 := by rcases listed with rfl | rfl <;> decide
    obtain ⟨record, leaves, stays, others, frame⟩ := State.setService_spec (s := s) low (ofWheel.trans wheel) (service == 1)
    rw [isOut] at leaves stays
    exact ⟨_, exec_replied rfl rfl takes did, record, leaves, stays, others, frame⟩
  · exact fun h => out ⟨(named.1 h.1).1, (named.1 h.1).2, h.2⟩
  · have did : s.doSetOccupancy cabin occupancy = (s.setOccupancy cabin.toNat occupancy.toNat, Answer.bare .done) :=
      if_pos ⟨named.2 ⟨low, ofWheel⟩, small⟩
    have zero : occupancy.toNat = 0 ↔ occupancy = 0 :=
      ⟨fun h => BitVec.eq_of_toNat_eq h, fun h => by rw [h]; rfl⟩
    have spec := State.setOccupancy_spec (s := s) (n := occupancy.toNat) low (ofWheel.trans wheel)
    simp only [zero, ne_eq] at spec
    exact ⟨_, exec_replied rfl rfl takes did, spec⟩
  · exact fun h => out ⟨(named.1 h.1).1, (named.1 h.1).2, h.2⟩

end Sys2Proof.Machine
end

section
/-! PROOFS. The beacons (R113 to R115): what a refresh sends, what two refreshes in one event leave, and that every event which
moves the level or CLOSE ends with a refresh. -/

namespace Sys2Proof.Machine

variable {s t u : State}

/-! ## What the beacons rest on -/

/-- What the patterns due and sent and the beacon orders rest on is the same. -/
structure State.SameBeacons (s t : State) : Prop where
  sent     : t.wind.sent = s.wind.sent
  level    : t.wind.level = s.wind.level
  close    : t.sweep.close = s.sweep.close
  active   : t.active = s.active
  origin   : t.path.origin = s.path.origin
  envelope : t.envelope = s.envelope

theorem State.SameBeacons.refl (s : State) : s.SameBeacons s := ⟨rfl, rfl, rfl, rfl, rfl, rfl⟩

theorem State.SameBeacons.trans (h : s.SameBeacons t) (k : t.SameBeacons u) : s.SameBeacons u :=
  ⟨k.sent.trans h.sent, k.level.trans h.level, k.close.trans h.close, k.active.trans h.active, k.origin.trans h.origin,
    k.envelope.trans h.envelope⟩

theorem State.SameBeacons.of_frame {bs : List Block} (h : s.OnlyChanges t bs) (wind : Block.wind ∉ bs) (sweep : Block.sweep ∉ bs)
    (policy : Block.policy ∉ bs) (path : Block.path ∉ bs) (envelope : Block.envelope ∉ bs) : s.SameBeacons t :=
  ⟨congrArg WindAssessor.sent (h .wind wind), congrArg WindAssessor.level (h .wind wind),
    congrArg SweepScheduler.close (h .sweep sweep), State.active_congr (h .policy policy),
    congrArg FramePath.origin (h .path path), h .envelope envelope⟩

theorem State.SameBeacons.post (s : State) (kind : NoticeKind) (m : Bool) (x d0 d1 d2 d3 : Byte) :
    s.SameBeacons (s.post kind m x d0 d1 d2 d3) :=
  .of_frame (s.post_frame kind m x d0 d1 d2 d3) (by decide) (by decide) (by decide) (by decide) (by decide)

theorem State.SameBeacons.postCommit (s : State) (e : CommitEnd) : s.SameBeacons (s.postCommit e) :=
  .of_frame (Move.postCommit s e).onlyChanges (by decide) (by decide) (by decide) (by decide) (by decide)

theorem State.SameBeacons.recomputeBoarding (s : State) : s.SameBeacons s.recomputeBoarding := ⟨rfl, rfl, rfl, rfl, rfl, rfl⟩

theorem State.SameBeacons.duePattern (h : s.SameBeacons t) : t.duePattern = s.duePattern := by
  unfold State.duePattern
  rw [h.close, h.level, h.active]

/-- The pattern sent last is the one due; a berth without a node has none. -/
def State.Shows (s : State) (berth : Berth) : Prop :=
  s.wind.sent.get berth = (s.active.nodeOf (.station berth)).map fun _ => s.duePattern

/-- The order of the pattern due waits for the berth's node. -/
def State.Orders (s : State) (berth : Berth) : Prop := ∀ n, s.active.nodeOf (.station berth) = some n → ∃ seq,
  { key := .beacon berth
    frame := Frame.build n s.envelope.own codeBeaconOrder flagOrigin seq [byte s.duePattern] } ∈ s.path.origin

/-- The beacons of `s` show what is due, and the orders wait where `before` sent another pattern. -/
def State.Refreshed (before : PerBerth (Option Nat)) (s : State) : Prop :=
  ∀ berth, s.Shows berth ∧ (before.get berth ≠ some s.duePattern → s.Orders berth)

theorem State.SameBeacons.shows (h : s.SameBeacons t) {berth : Berth} (shown : s.Shows berth) : t.Shows berth := by
  unfold State.Shows
  rw [h.sent, h.active, h.duePattern]
  exact shown

theorem State.SameBeacons.orders (h : s.SameBeacons t) {berth : Berth} (ordered : s.Orders berth) : t.Orders berth := by
  unfold State.Orders
  rw [h.active, h.envelope, h.duePattern, h.origin]
  exact ordered

theorem State.SameBeacons.refreshed (h : s.SameBeacons t) {before : PerBerth (Option Nat)} (k : s.Refreshed before) :
    t.Refreshed before := fun berth =>
  ⟨h.shows (k berth).1, fun other => h.orders ((k berth).2 (h.duePattern ▸ other))⟩

/-! ## A refresh -/

/-- A waiting frame of another key keeps its place. -/
theorem mem_placeOrigin_of_ne {o w : Originated} {l : List Originated} (mem : w ∈ l) (other : w.key ≠ o.key) :
    w ∈ placeOrigin o l := by
  induction l with
  | nil => cases mem
  | cons v l ih =>
    unfold placeOrigin
    rcases List.mem_cons.1 mem with rfl | rest
    · rw [if_neg other]
      exact List.mem_cons_self
    · split
      · exact List.mem_cons_of_mem _ rest
      · exact List.mem_cons_of_mem _ (ih rest)

/-- What a refresh of one berth does: its sent pattern becomes the one due, an order waits where that is new, an order that waits is
kept where it is not, and the other berth's orders and sent pattern are kept. -/
theorem State.refreshBeacon_effect (s : State) (berth : Berth) :
    let u := s.refreshBeacon berth
    u.sweep = s.sweep ∧ u.policy = s.policy ∧ u.envelope = s.envelope ∧ u.wind.level = s.wind.level ∧
      u.wind.sent = s.wind.sent.set berth ((s.active.nodeOf (.station berth)).map fun _ => s.duePattern) ∧
      (∀ n, s.active.nodeOf (.station berth) = some n → s.wind.sent.get berth ≠ some s.duePattern → ∃ seq,
        { key := .beacon berth
          frame := Frame.build n s.envelope.own codeBeaconOrder flagOrigin seq [byte s.duePattern] } ∈ u.path.origin) ∧
      (∀ o ∈ s.path.origin, o.key ≠ .beacon berth ∨ s.wind.sent.get berth = some s.duePattern → o ∈ u.path.origin) := by
  have same (x : PerBerth (Option Nat)) : x.set berth (x.get berth) = x := by cases berth <;> rfl
  unfold State.refreshBeacon
  split
  · next free =>
    exact ⟨rfl, rfl, rfl, rfl, (by rw [free]; rfl), fun n node => absurd (free.symm.trans node) (Option.some_ne_none n).symm,
      fun o mem _ => mem⟩
  · next n node =>
    split
    · next shown =>
      exact ⟨rfl, rfl, rfl, rfl, (by rw [node, Option.map_some, ← shown, same]), fun _ _ new => absurd shown new,
        fun o mem _ => mem⟩
    · next new =>
      refine ⟨rfl, rfl, rfl, rfl, (by rw [node]; rfl), fun m isNode _ => ⟨s.path.fieldSeq, ?_⟩, fun o mem other => ?_⟩
      · cases Option.some.inj (node.symm.trans isNode)
        exact mem_placeOrigin _ _
      · exact mem_placeOrigin_of_ne mem (other.resolve_right new)

theorem State.duePattern_congr (sweep : t.sweep = s.sweep) (level : t.wind.level = s.wind.level) (active : t.active = s.active) :
    t.duePattern = s.duePattern := by
  unfold State.duePattern
  rw [sweep, level, active]

/-- What a refresh of both does. -/
theorem State.refreshBeacons_effect (s : State) :
    s.refreshBeacons.sweep = s.sweep ∧ s.refreshBeacons.active = s.active ∧ s.refreshBeacons.envelope = s.envelope ∧
      s.refreshBeacons.wind.level = s.wind.level ∧ s.refreshBeacons.duePattern = s.duePattern ∧
      (∀ berth, s.refreshBeacons.wind.sent.get berth = (s.active.nodeOf (.station berth)).map fun _ => s.duePattern) ∧
      (∀ berth n, s.active.nodeOf (.station berth) = some n → s.wind.sent.get berth ≠ some s.duePattern → ∃ seq,
        { key := .beacon berth
          frame := Frame.build n s.envelope.own codeBeaconOrder flagOrigin seq [byte s.duePattern] } ∈
            s.refreshBeacons.path.origin) ∧
      (∀ berth, s.wind.sent.get berth = some s.duePattern → ∀ o ∈ s.path.origin, o.key = .beacon berth →
        o ∈ s.refreshBeacons.path.origin) := by
  obtain ⟨sweepA, policyA, envelopeA, levelA, sentA, ordersA, keepsA⟩ := s.refreshBeacon_effect .a
  obtain ⟨sweepB, policyB, envelopeB, levelB, sentB, ordersB, keepsB⟩ := (s.refreshBeacon .a).refreshBeacon_effect .b
  have activeA := State.active_congr policyA
  have dueA := State.duePattern_congr sweepA levelA activeA
  have sentBefore : (s.refreshBeacon .a).wind.sent.get .b = s.wind.sent.get .b := by rw [sentA]; rfl
  rw [activeA, envelopeA, dueA, sentBefore] at ordersB
  rw [sentBefore, dueA] at keepsB
  rw [activeA, dueA, sentA] at sentB
  have sweep := sweepB.trans sweepA
  have active := (State.active_congr policyB).trans activeA
  refine ⟨sweep, active, envelopeB.trans envelopeA, levelB.trans levelA,
    State.duePattern_congr sweep (levelB.trans levelA) active, fun berth => ?_, fun berth n node new => ?_,
    fun berth shown o mem key => ?_⟩
  · rw [State.refreshBeacons, sentB]
    cases berth <;> rfl
  · cases berth with
    | a =>
      obtain ⟨seq, mem⟩ := ordersA n node new
      exact ⟨seq, keepsB _ mem (.inl nofun)⟩
    | b => exact ordersB n node new
  · cases berth with
    | a => exact keepsB o (keepsA o mem (.inr shown)) (.inl (by rw [key]; nofun))
    | b => exact keepsB o (keepsA o mem (.inl (by rw [key]; nofun))) (.inr shown)

theorem State.refreshBeacons_refreshed (s : State) : s.refreshBeacons.Refreshed s.wind.sent := by
  obtain ⟨-, active, envelope, -, due, sent, orders, -⟩ := s.refreshBeacons_effect
  intro berth
  unfold State.Shows State.Orders
  rw [due, active, envelope]
  exact ⟨sent berth, fun new n node => orders berth n node new⟩

/-- The state before a refresh still holds what an earlier one left. -/
structure State.KeepsBeacons (s t : State) : Prop where
  sent     : t.wind.sent = s.wind.sent
  active   : t.active = s.active
  origin   : t.path.origin = s.path.origin
  envelope : t.envelope = s.envelope

theorem State.KeepsBeacons.trans (h : s.KeepsBeacons t) (k : t.KeepsBeacons u) : s.KeepsBeacons u :=
  ⟨k.sent.trans h.sent, k.active.trans h.active, k.origin.trans h.origin, k.envelope.trans h.envelope⟩

theorem State.KeepsBeacons.of_frame {bs : List Block} (h : s.OnlyChanges t bs) (sent : t.wind.sent = s.wind.sent)
    (policy : Block.policy ∉ bs) (path : Block.path ∉ bs) (envelope : Block.envelope ∉ bs) : s.KeepsBeacons t :=
  ⟨sent, State.active_congr (h .policy policy), congrArg FramePath.origin (h .path path), h .envelope envelope⟩

/-- A second refresh leaves the orders that the first sent and the second finds right. -/
theorem State.Refreshed.again {before : PerBerth (Option Nat)} (h : s.Refreshed before) (k : s.KeepsBeacons t) :
    t.refreshBeacons.Refreshed before := by
  obtain ⟨-, active, envelope, -, due, sent, orders, keeps⟩ := t.refreshBeacons_effect
  intro berth
  unfold State.Shows State.Orders
  rw [due, active, envelope]
  refine ⟨sent berth, fun new n node => ?_⟩
  by_cases shown : t.wind.sent.get berth = some t.duePattern
  · obtain ⟨shows, ordered⟩ := h berth
    have isDue : s.duePattern = t.duePattern := by
      unfold State.Shows at shows
      rw [← k.active, node, ← k.sent, shown] at shows
      simpa using shows.symm
    obtain ⟨seq, mem⟩ := ordered (by rw [isDue]; exact new) n (by rw [← k.active]; exact node)
    rw [isDue, ← k.envelope, ← k.origin] at mem
    exact ⟨seq, keeps berth shown _ mem rfl⟩
  · exact orders berth n node shown

/-! ## Events that end with a refresh -/

/-- An event leaves the level, CLOSE and the beacons, or moves one of the two and ends with a refresh. -/
inductive State.BeaconStep (s u : State) : Prop
  | keeps (h : s.SameBeacons u)
  | refreshes (v : State) (before : s.KeepsBeacons v) (after : u = v.refreshBeacons)
      (moved : u.wind.level ≠ s.wind.level ∨ u.sweep.close ≠ s.sweep.close)

/-- Whenever the level or CLOSE has moved the beacons are refreshed, and otherwise nothing has been sent. -/
structure State.Follows (s u : State) : Prop where
  moved    : u.wind.level ≠ s.wind.level ∨ u.sweep.close ≠ s.sweep.close → u.Refreshed s.wind.sent
  still    : u.wind.level = s.wind.level → u.sweep.close = s.sweep.close → u.wind.sent = s.wind.sent
  envelope : u.envelope = s.envelope

theorem State.BeaconStep.follows (h : s.BeaconStep u) : s.Follows u := by
  cases h with
  | keeps h => exact ⟨fun moved => absurd moved (by simp [h.level, h.close]), fun _ _ => h.sent, h.envelope⟩
  | refreshes v before after moved =>
      subst after
      refine ⟨fun _ => ?_, fun level close => absurd moved (by simp [level, close]),
        v.refreshBeacons_effect.2.2.1.trans before.envelope⟩
      rw [← before.sent]
      exact v.refreshBeacons_refreshed

/-- Two parts of an event, of which one leaves CLOSE and the other the level, follow where both do. -/
theorem State.BeaconStep.follows_two (h : s.BeaconStep t) (k : t.BeaconStep u)
    (apart : t.wind.level = s.wind.level ∧ u.sweep.close = t.sweep.close ∨
      t.sweep.close = s.sweep.close ∧ u.wind.level = t.wind.level) : s.Follows u := by
  cases h with
  | keeps h =>
      obtain ⟨moved, still, envelope⟩ := k.follows
      rw [h.level, h.close, h.sent] at moved still
      exact ⟨moved, still, envelope.trans h.envelope⟩
  | refreshes v before after movedFirst =>
      have first : t.Refreshed s.wind.sent := (State.BeaconStep.refreshes v before after movedFirst).follows.moved movedFirst
      have envelopeFirst := (State.BeaconStep.refreshes v before after movedFirst).follows.envelope
      have moved : u.wind.level ≠ s.wind.level ∨ u.sweep.close ≠ s.sweep.close := by
        rcases apart with ⟨level, close⟩ | ⟨close, level⟩
        · rw [close]
          exact .inr (movedFirst.resolve_left (not_not.2 level))
        · rw [level]
          exact .inl (movedFirst.resolve_right (not_not.2 close))
      refine ⟨fun _ => ?_, fun level close => absurd moved (by simp [level, close]), k.follows.envelope.trans envelopeFirst⟩
      cases k with
      | keeps k => exact k.refreshed first
      | refreshes w before' after' _ => rw [after']; exact first.again before'

theorem Level.down_ne {l : Level} (h : l ≠ .opened) : l.down ≠ l := by
  cases l <;> first | exact absurd rfl h | nofun

/-- A level change ends with a refresh. -/
theorem State.changeLevel_beaconStep {l : Level} (new : l ≠ s.wind.level) : s.BeaconStep (s.changeLevel l) := by
  have set : s.KeepsBeacons (s.levelSet l) :=
    .of_frame (s.levelSet_frame l) (by rw [s.levelSet_wind]) (by decide) (by decide) (by decide)
  have heard := (Move.sweepLevel (q := true) (s.levelSet l)).onlyChanges
  have told : (s.levelSet l).KeepsBeacons (s.levelSet l).sweepLevel :=
    .of_frame heard (congrArg WindAssessor.sent (heard .wind (by decide))) (by decide) (by decide) (by decide)
  obtain ⟨_, wind⟩ := s.changeLevel_wind l
  exact .refreshes _ (set.trans told) rfl (.inl (by rw [wind]; exact new))

theorem State.countdown_beaconStep (s : State) (n : Nat) : s.BeaconStep (s.withWind { s.wind with countdown := n }) :=
  .keeps ⟨rfl, rfl, rfl, rfl, rfl, rfl⟩

theorem State.applyFloors_beaconStep (s : State) : s.BeaconStep s.applyFloors := by
  unfold State.applyFloors
  by_cases below : s.wind.level.code < s.floorLevel.code
  · rw [State.raiseLevel_of_lt below]
    exact State.changeLevel_beaconStep fun same => by rw [same] at below; omega
  · rw [State.raiseLevel_of_le (Nat.not_lt.1 below)]
    exact .keeps (.refl s)

theorem State.tickLevel_beaconStep (s : State) : s.BeaconStep s.tickLevel := by
  unfold State.tickLevel
  split
  · next below => exact State.changeLevel_beaconStep fun same => by rw [same] at below; omega
  · unfold State.descend
    split
    · exact s.countdown_beaconStep 0
    · next above =>
      split
      · split
        · exact State.changeLevel_beaconStep (Level.down_ne above)
        · exact s.countdown_beaconStep _
      · exact s.countdown_beaconStep _

theorem State.holdDownFall_beaconStep (s : State) : s.BeaconStep s.holdDownFall := by
  unfold State.holdDownFall
  split
  · next falls => exact State.changeLevel_beaconStep (Level.down_ne falls.1)
  · exact .keeps (.refl s)

/-- A step on a state whose beacons are those of another is a step of that other. -/
theorem State.BeaconStep.of_same (h : s.SameBeacons t) (k : t.BeaconStep u) : s.BeaconStep u := by
  cases k with
  | keeps k => exact .keeps (h.trans k)
  | refreshes v before after moved =>
      refine .refreshes v (.trans ⟨h.sent, h.active, h.origin, h.envelope⟩ before) after ?_
      rw [← h.level, ← h.close]
      exact moved

theorem State.secondClosed_sameBeacons (s : State) : s.SameBeacons s.secondClosed := by
  have frame := s.secondClosed_move.onlyChanges
  have sent : s.secondClosed.wind.sent = s.wind.sent := by
    rw [State.secondClosed, State.recomputeWind_sent, s.tickChannels_wind]
  exact ⟨sent, s.secondClosed_move.inputs.level, congrArg SweepScheduler.close (frame .sweep (by decide)),
    s.secondClosed_move.inputs.active, congrArg FramePath.origin (frame .path (by decide)), frame .envelope (by decide)⟩

theorem State.windTick_beaconStep (s : State) : s.BeaconStep s.windTick :=
  .of_same s.secondClosed_sameBeacons s.secondClosed.tickLevel_beaconStep

/-- The end of the scheduler's part, behind changes of the cause set, tells the beacons where CLOSE has moved. -/
theorem State.reportClose_beaconStep {v : State} (moved : v.sweep.close ≠ s.sweep.close)
    (frame : s.OnlyChanges v [.sweep, .cabins, .notices]) : s.BeaconStep (v.reportClose s.sweep) := by
  have told : v.reportClose s.sweep = v.refreshBeacons := if_neg moved
  have wind : v.wind = s.wind := frame .wind (by decide)
  rw [told]
  refine .refreshes v (.of_frame frame (by rw [wind]) (by decide) (by decide) (by decide)) rfl (.inr ?_)
  rw [v.refreshBeacons_effect.1]
  exact moved

theorem State.sweepAdd_close_beaconStep (s : State) (src : SweepSource) : s.BeaconStep (s.sweepAdd .close src) := by
  cases off : s.sweep.close with
  | true => rw [State.sweepAdd_of_held (c := .close) off]; exact .keeps (.refl s)
  | false =>
      rw [State.sweepAdd_of_new (c := .close) off]
      refine State.reportClose_beaconStep ?_ (((Move.addCause (q := true) s .close).onlyChanges.mono (by decide)).trans
        ((State.finishSweep_frame _ _ _).mono (by decide)))
      rw [State.finishSweep_sweep, State.addCause_sweep (c := .close) off]
      show true ≠ s.sweep.close
      rw [off]
      nofun

theorem State.sweepRemove_close_beaconStep (s : State) (src : SweepSource) : s.BeaconStep (s.sweepRemove .close src) := by
  cases on : s.sweep.close with
  | false => rw [State.sweepRemove_of_free (c := .close) on]; exact .keeps (.refl s)
  | true =>
      rw [State.sweepRemove_of_held (c := .close) on]
      refine State.reportClose_beaconStep ?_ (((Move.removeCause (q := true) s .close).onlyChanges.mono (by decide)).trans
        ((State.finishSweep_frame _ _ _).mono (by decide)))
      obtain ⟨_, sweep⟩ := s.removeCause_causes .close
      rw [State.finishSweep_sweep, sweep]
      show false ≠ s.sweep.close
      rw [on]
      nofun

theorem State.clockTick_beaconStep (s : State) : s.BeaconStep s.clockTick := by
  have ticked : s.SameBeacons (s.withClock s.clock.tick) := ⟨rfl, rfl, rfl, rfl, rfl, rfl⟩
  unfold State.clockTick
  dsimp only
  split
  · exact .of_same (ticked.trans (.post _ _ _ _ _ _ _ _)) (State.sweepAdd_close_beaconStep _ _)
  · exact .keeps ticked

theorem State.clockTick_level (s : State) : s.clockTick.wind.level = s.wind.level := (Move.clockTick s).inputs.level

theorem State.windTick_close (s : State) : s.windTick.sweep.close = s.sweep.close := by
  obtain ⟨_, _, _, sweep⟩ := s.windTick_causes
  rw [sweep]

theorem State.secondTick_follows (s : State) (clockFirst : Bool) : s.Follows (s.secondTick clockFirst) := by
  cases clockFirst with
  | true =>
      rw [s.secondTick_clockFirst]
      exact s.clockTick_beaconStep.follows_two s.clockTick.windTick_beaconStep
        (.inl ⟨s.clockTick_level, s.clockTick.windTick_close⟩)
  | false =>
      rw [s.secondTick_windFirst]
      exact s.windTick_beaconStep.follows_two s.windTick.clockTick_beaconStep
        (.inr ⟨s.windTick_close, s.windTick.clockTick_level⟩)

/-! ## Resends -/

/-- Both berths show what is due, and the orders wait. -/
def State.Resent (s : State) : Prop := ∀ berth, s.Shows berth ∧ s.Orders berth

theorem State.SameBeacons.resent (h : s.SameBeacons t) (k : s.Resent) : t.Resent := fun berth =>
  ⟨h.shows (k berth).1, h.orders (k berth).2⟩

theorem State.resendBeacons_resent (s : State) : s.resendBeacons.Resent := by
  intro berth
  obtain ⟨shows, orders⟩ := (s.withWind { s.wind with sent := { a := none, b := none } }).refreshBeacons_refreshed berth
  refine ⟨shows, orders ?_⟩
  cases berth <;> nofun

theorem State.takeBank_resent (s : State) : s.takeBank.Resent := by
  rw [State.takeBank, State.windBankChange_eq]
  exact (State.SameBeacons.recomputeBoarding _).resent (State.resendBeacons_resent _)

/-- The state in which a warm restart has emptied the queues and the picture, before the Wind Assessor's part. -/
def State.cleared (s : State) : State :=
  ((((s.withPath s.path.restarted).withNotices NoticeUnit.restarted).withRim RimTracker.reset).withBoard s.board.restarted)

theorem State.warmRestart_eq (s : State) : s.warmRestart =
    ((s.cleared.windRestart).withSweep
      { s.cleared.windRestart.sweep with served := Vector.replicate 64 false }).recomputeBoarding.endRestart := rfl

theorem State.warmRestart_resent (s : State) : s.warmRestart.Resent := by
  have resent : s.cleared.windRestart.Resent := by
    rw [State.windRestart]
    exact State.resendBeacons_resent _
  rw [State.warmRestart_eq]
  generalize s.cleared.windRestart = u at resent
  have after : u.SameBeacons
      ((u.withSweep { u.sweep with served := Vector.replicate 64 false }).recomputeBoarding.endRestart) :=
    ⟨rfl, rfl, rfl, rfl, rfl, rfl⟩
  exact after.resent resent

theorem State.carryOutDeferred_resent (h : s.Resent) : s.carryOutDeferred.Resent := by
  unfold State.carryOutDeferred
  split
  · exact State.warmRestart_resent _
  · exact h

theorem State.swapBanks_resent (h : s.policy.commitBank ≠ none) : s.swapBanks.Resent := by
  unfold State.swapBanks
  split
  · next none => exact absurd none h
  · dsimp only
    split
    · exact (State.SameBeacons.postCommit _ _).resent (State.carryOutDeferred_resent (State.takeBank_resent _))
    · exact State.takeBank_resent _

/-- In bank 0 no node is a station, so nothing is sent. -/
theorem State.sent_of_floor (shows : ∀ berth, s.Shows berth) (floor : s.policy.active = .floor) :
    s.wind.sent = { a := none, b := none } := by
  have active : s.active = floorBank := by
    unfold State.active
    rw [floor]
    rfl
  have nothing (berth : Berth) : s.wind.sent.get berth = none := by
    have shown := shows berth
    unfold State.Shows at shown
    rw [active] at shown
    cases berth <;> exact shown
  have a : s.wind.sent.a = none := nothing .a
  have b : s.wind.sent.b = none := nothing .b
  generalize s.wind.sent = sent at a b
  cases sent
  subst a b
  rfl

theorem State.toFloor_of_loaded (h : s.policy.active ≠ .floor) :
    s.toFloor = (s.withPolicy { s.policy with active := .floor }).takeBank := if_neg h

theorem State.toFloor_floor (s : State) : s.toFloor.policy.active = .floor := by
  unfold State.toFloor
  split
  · assumption
  · rw [State.takeBank_policy]
    rfl

theorem State.warmRestart_policy (s : State) : s.warmRestart.policy = s.policy :=
  (Move.warmRestart s).onlyChanges .policy (by decide)

theorem State.carryOutDeferred_policy (s : State) : s.carryOutDeferred.policy = { s.policy with deferred := false } := by
  unfold State.carryOutDeferred
  split
  · rw [State.warmRestart_policy, State.withPolicy_policy]
  · next none =>
    rw [← Bool.eq_false_iff.2 none]

theorem State.postCommit_policy (s : State) (e : CommitEnd) : (s.postCommit e).policy = s.policy :=
  (Move.postCommit s e).onlyChanges .policy (by decide)

theorem State.revert_floor (s : State) : s.revert.policy.active = .floor := by
  unfold State.revert
  split
  · dsimp only
    split
    · rw [State.postCommit_policy, State.carryOutDeferred_policy]
      exact State.toFloor_floor _
    · exact State.toFloor_floor _
  · exact State.toFloor_floor _

theorem State.revert_resent (h : s.policy.active ≠ .floor) : s.revert.Resent := by
  have toFloor (u : State) (policy : u.policy.active = s.policy.active) : u.toFloor.Resent := by
    rw [State.toFloor_of_loaded (by rw [policy]; exact h)]
    exact State.takeBank_resent _
  unfold State.revert
  split
  · dsimp only
    split
    · exact (State.SameBeacons.postCommit _ _).resent (State.carryOutDeferred_resent (toFloor _ rfl))
    · exact toFloor _ (by rw [State.postCommit_policy]; rfl)
  · exact toFloor s rfl

/-! ## Through the close -/

/-- A frame that waits in the origin queue still does after the close, or is in transmission. -/
theorem State.close_origin {o : Originated} (h : o ∈ s.path.origin) :
    o ∈ s.close.path.origin ∨ s.close.path.fldTx = some o.frame := by
  obtain ⟨u, closed, fldTx, origin, -⟩ := s.close_fieldQueues
  rw [← origin] at h
  rw [closed]
  cases idle : u.path.fldTx with
  | some f => rw [State.chooseField_of_busy idle]; exact .inl h
  | none =>
      cases queue : u.path.origin with
      | nil => rw [queue] at h; cases h
      | cons w ws =>
          rw [State.chooseField_of_origin idle queue]
          rw [queue] at h
          rcases List.mem_cons.1 h with rfl | rest
          · exact .inr rfl
          · exact .inl rest

theorem State.close_duePattern (s : State) : s.close.duePattern = s.duePattern :=
  State.duePattern_congr s.close_sweep (by rw [s.close_wind]) (State.active_congr s.close_policy)

theorem State.close_shows {berth : Berth} (h : s.Shows berth) :
    s.close.wind.sent.get berth = (s.close.active.nodeOf (.station berth)).map fun _ => s.close.duePattern := by
  rw [s.close_wind, State.active_congr s.close_policy, s.close_duePattern]
  exact h

theorem State.close_orders {berth : Berth} (h : s.Orders berth) (n : Byte)
    (node : s.close.active.nodeOf (.station berth) = some n) : ∃ seq,
    { key := .beacon berth
      frame := Frame.build n s.envelope.own codeBeaconOrder flagOrigin seq [byte s.close.duePattern] } ∈ s.close.path.origin ∨
    s.close.path.fldTx = some (Frame.build n s.envelope.own codeBeaconOrder flagOrigin seq [byte s.close.duePattern]) := by
  rw [State.active_congr s.close_policy] at node
  obtain ⟨seq, mem⟩ := h n node
  rw [s.close_duePattern]
  exact ⟨seq, State.close_origin mem⟩

theorem State.enqueuePart_sameBeacons (s : State) (dest cls : Byte) (payload : List Byte) :
    s.SameBeacons (s.enqueuePart dest cls payload) := ⟨rfl, rfl, rfl, rfl, rfl, rfl⟩

theorem State.Follows.replied (h : s.Follows u) (who : Requester) (o : ReplyOutcome) (data : List Byte) :
    s.Follows (u.replied who o data) :=
  ⟨fun moved => (State.enqueuePart_sameBeacons _ _ _ _).refreshed (h.moved moved), h.still, h.envelope⟩

theorem State.replied_wind (s : State) (who : Requester) (o : ReplyOutcome) (data : List Byte) :
    (s.replied who o data).wind = s.wind := rfl

theorem State.replied_envelope (s : State) (who : Requester) (o : ReplyOutcome) (data : List Byte) :
    (s.replied who o data).envelope = s.envelope := rfl

theorem State.Resent.replied (h : s.Resent) (who : Requester) (o : ReplyOutcome) (data : List Byte) :
    (s.replied who o data).Resent :=
  (State.enqueuePart_sameBeacons s _ _ _).resent h

/-- What the beacons' statement asks of the state after the close. -/
theorem State.Follows.closed (h : s.Follows u) :
    ((u.close.wind.level ≠ s.wind.level ∨ u.close.sweep.close ≠ s.sweep.close) → ∀ berth,
      u.close.wind.sent.get berth = ((u.close.active.nodeOf (.station berth)).map fun _ => u.close.duePattern) ∧
      (s.wind.sent.get berth ≠ some u.close.duePattern → ∀ n, u.close.active.nodeOf (.station berth) = some n → ∃ seq,
        { key := .beacon berth
          frame := Frame.build n s.envelope.own codeBeaconOrder flagOrigin seq [byte u.close.duePattern] } ∈
            u.close.path.origin ∨
        u.close.path.fldTx =
          some (Frame.build n s.envelope.own codeBeaconOrder flagOrigin seq [byte u.close.duePattern]))) ∧
    (u.close.wind.level = s.wind.level → u.close.sweep.close = s.sweep.close → u.close.wind.sent = s.wind.sent) := by
  rw [u.close_wind, u.close_sweep, ← h.envelope]
  refine ⟨fun moved berth => ⟨?_, fun new n node => ?_⟩, h.still⟩
  · rw [← u.close_wind]
    exact State.close_shows (h.moved moved berth).1
  · exact State.close_orders ((h.moved moved berth).2 (by rw [← u.close_duePattern]; exact new)) n node

theorem State.Resent.closed (h : u.Resent) (envelope : u.envelope = s.envelope) (berth : Berth) :
    u.close.wind.sent.get berth = ((u.close.active.nodeOf (.station berth)).map fun _ => u.close.duePattern) ∧
    ∀ n, u.close.active.nodeOf (.station berth) = some n → ∃ seq,
      { key := .beacon berth
        frame := Frame.build n s.envelope.own codeBeaconOrder flagOrigin seq [byte u.close.duePattern] } ∈ u.close.path.origin ∨
      u.close.path.fldTx =
        some (Frame.build n s.envelope.own codeBeaconOrder flagOrigin seq [byte u.close.duePattern]) := by
  rw [← envelope]
  exact ⟨State.close_shows (h berth).1, State.close_orders (h berth).2⟩

/-- Settles O42: each event that may move the level or CLOSE follows, and a swap, a warm restart and a revert resend. -/
theorem beaconsFollowTheLevel : Obligations.BeaconsFollowTheLevel := by
  intro s running
  have event (f : State → State) : (.next (s.takeEvent f) : Host.Outcome State Fault Refusal) = .next (f s).close :=
    congrArg _ (State.takeEvent_running running f)
  refine ⟨fun k => ⟨_, event _, (s.secondTick_follows k).closed⟩, ⟨_, event _, s.holdDownFall_beaconStep.follows.closed⟩,
    fun who takes => ⟨⟨_, exec_replied rfl rfl takes rfl, ?_⟩, fun level => ?_, fun free => ?_, fun loaded => ?_⟩,
    fun pending bank none => ⟨_, event _, ?_⟩⟩
  · exact ((s.sweepRemove_close_beaconStep .request).follows.replied _ _ _).closed
  · cases listed : Level.ofCode level.toNat with
    | none =>
        have did : s.doSetOperatorFloor level = s.refuseRequest .range := by
          unfold State.doSetOperatorFloor
          rw [listed]
        exact ⟨_, exec_replied rfl rfl takes did, ((State.BeaconStep.keeps (.refl s)).follows.replied _ _ _).closed⟩
    | some l =>
        have did : s.doSetOperatorFloor level = ((s.withWind { s.wind with floor := l }).applyFloors,
            { outcome := .done, data := [byte (s.withWind { s.wind with floor := l }).applyFloors.wind.floor.code,
              byte (s.withWind { s.wind with floor := l }).applyFloors.wind.level.code] }) := by
          unfold State.doSetOperatorFloor
          rw [listed]
        have floored : s.SameBeacons (s.withWind { s.wind with floor := l }) := ⟨rfl, rfl, rfl, rfl, rfl, rfl⟩
        exact ⟨_, exec_replied rfl rfl takes did,
          ((State.BeaconStep.of_same floored (State.applyFloors_beaconStep _)).follows.replied _ _ _).closed⟩
  · have did : s.doWarmRestart = (s.warmRestart, Answer.bare .done) := if_neg (by simp [State.inFlight, free])
    have envelope : s.warmRestart.envelope = s.envelope := (Move.warmRestart s).onlyChanges .envelope (by decide)
    exact ⟨_, exec_replied rfl rfl takes did,
      (s.warmRestart_resent.replied who .done []).closed ((State.replied_envelope _ _ _ _).trans envelope)⟩
  · have did : s.doRevertToFloor = (s.revert, { outcome := .done, data := [byte s.revert.policy.active.code] }) := by
      rw [State.doRevertToFloor]
    refine ⟨_, exec_replied rfl rfl takes did, ?_⟩
    rw [State.close_wind, State.replied_wind]
    exact State.sent_of_floor (fun berth => (State.revert_resent loaded berth).1) s.revert_floor
  · have swaps : s.trySwap = s.swapBanks := if_pos (by simp [State.atSafePoint, pending, none])
    have envelope : s.swapBanks.envelope = s.envelope := (Move.swapBanks s).onlyChanges .envelope (by decide)
    rw [swaps]
    exact (State.swapBanks_resent bank).closed envelope

end Sys2Proof.Machine
end

section
/-! PROOFS. Timers and ticks: the ends of the staleness and watch timers (R131, R134, R38), and the quarter tick's ramp (R132). -/

namespace Sys2Proof.Machine

variable {s t u : State}

/-! ## A drive's record -/

theorem State.withDrive_drive_self (s : State) (d : DriveIx) (x : Drive) : (s.withDrive d x).drive d = x :=
  Vector.getElem_set_self _

theorem State.withDrive_drive_of_ne (s : State) {d e : DriveIx} (h : e ≠ d) (x : Drive) : (s.withDrive d x).drive e = s.drive e :=
  by
  unfold State.drive State.withDrive
  simp only [State.withGovernor_governor, Fin.getElem_fin]
  rw [Vector.getElem_set_ne _ _ fun same => h (Fin.ext same.symm)]

theorem State.withDrive_withDrive (s : State) (d : DriveIx) (x y : Drive) : (s.withDrive d x).withDrive d y = s.withDrive d y := by
  simp only [State.withDrive, State.withGovernor, Vector.set_set]

theorem State.drive_congr (h : t.governor = s.governor) (d : DriveIx) : t.drive d = s.drive d := by
  unfold State.drive
  rw [h]

theorem State.postStale_governor (s : State) (d : DriveIx) (e : StaleEvent) : (s.postStale d e).governor = s.governor :=
  s.post_governor ..

theorem State.postStale_path (s : State) (d : DriveIx) (e : StaleEvent) : (s.postStale d e).path = s.path := s.post_path ..

/-! ## The timers' ends -/

theorem State.staleExpiry_of_stopped {d : DriveIx} (h : (s.drive d).stale = none) : s.staleExpiry d = s := by
  unfold State.staleExpiry
  rw [h]

/-- The time left passes; the timer is left stopped, and a FOLLOWING drive is substituted for. -/
theorem State.staleExpiry_of_running {d : DriveIx} {ms : Nat} (h : (s.drive d).stale = some ms) : s.staleExpiry d =
    if (s.drive d).state = .following then
      ((s.advance ms).withDrive d { s.drive d with state := .substituting, subs := 0, stale := none }).postStale d .entered
    else (s.advance ms).withDrive d { s.drive d with stale := none } := by
  unfold State.staleExpiry
  rw [h]
  simp only [State.withDrive_drive_self, State.withDrive_withDrive, State.advance_drive]

theorem State.encoderExpiry_of_stopped (h : s.rim.watch = none) : s.encoderExpiry = s := by
  unfold State.encoderExpiry
  rw [h]

theorem State.encoderExpiry_of_running {ms : Nat} (h : s.rim.watch = some ms) : s.encoderExpiry = (s.advance ms).losePosition := by
  unfold State.encoderExpiry
  rw [h]

theorem State.losePosition_frame (s : State) : s.OnlyChanges s.losePosition [.rim, .governor] := by
  intro blk apart
  cases blk <;> first | rfl | exact absurd (by decide) apart

theorem State.losePosition_governor (s : State) : s.losePosition.governor = { s.governor with
    ceilingF := s.losePosition.forwardNow, ceilingV := s.losePosition.reverseNow, rimHold := s.losePosition.governor.rimHold } := rfl

theorem State.losePosition_ceilings (s : State) : s.losePosition.CeilingsAgree := State.recomputeCeilings_ceilings _

theorem State.reported_of_unknown (h : s.rim.known = false) (c : Nat) : s.reported c = none := by
  unfold State.reported
  rw [h]
  rfl

/-- Settles O44: both expiries let the ms left pass and act on their timer's own record. -/
theorem timersRunOut : Obligations.TimersRunOut := by
  intro ms s running
  have event (f : State → State) {u : State} (did : f s = u) :
      (.next (s.takeEvent f) : Host.Outcome State Fault Refusal) = .next u.close := by
    rw [State.takeEvent_running running, did]
  refine ⟨fun d => ⟨fun left follows => event (·.staleExpiry d) ?_, fun left rests => event (·.staleExpiry d) ?_,
    fun stopped => event (·.staleExpiry d) (State.staleExpiry_of_stopped stopped)⟩, fun left => ?_,
    fun stopped => event _ (State.encoderExpiry_of_stopped stopped)⟩
  · rw [State.staleExpiry_of_running left, if_pos follows, State.postStale, State.withDrive_drive_self]
    rfl
  · rw [State.staleExpiry_of_running left, if_neg rests]
    rfl
  · have lost := State.encoderExpiry_of_running left
    obtain ⟨forward, reverse, rim⟩ := (State.close_inputs _).ceilingsAgree (s.advance ms).losePosition_ceilings
    refine ⟨_, event _ lost, ?_, fun c => ?_, ?_, ?_,
      ((s.advance ms).losePosition_frame.mono (by decide)).trans ((State.close_frame _).mono (by decide))⟩
    · rw [State.close_rim]
      rfl
    · exact State.reported_of_unknown (by rw [State.close_rim]; rfl) c
    · rw [(State.close_inputs _).forwardNow, (State.close_inputs _).reverseNow, State.close_governor]
      exact (s.advance ms).losePosition_governor
    · rw [rim (by rw [State.close_phase]; exact running), rimHoldFor_eq_true, State.close_mode]
      exact .rfl

/-! ## Orders that are originated -/

/-- In SCREEN mode an order to a role that has a node waits in the origin queue. -/
theorem State.originateOrder_mem {key : OriginKey} {role : Role} {cls n : Byte} {payload : List Byte} (screen : s.mode = .screen)
    (node : s.active.nodeOf role = some n) : ∃ seq,
      { key := key, frame := Frame.build n s.envelope.own cls flagOrigin seq payload } ∈
        (s.originateOrder key role cls payload).path.origin := by
  have built : s.originateOrder key role cls payload = s.originate key n cls payload := by
    unfold State.originateOrder
    rw [if_neg (by rw [screen]; nofun), node]
  rw [built]
  exact ⟨_, mem_placeOrigin _ _⟩

/-- An order of another key that waits in the origin queue still does. -/
theorem State.originateOrder_keeps {key : OriginKey} {role : Role} {cls : Byte} {payload : List Byte} {o : Originated}
    (mem : o ∈ s.path.origin) (other : o.key ≠ key) : o ∈ (s.originateOrder key role cls payload).path.origin := by
  unfold State.originateOrder
  split
  · exact mem
  · split
    · exact mem
    · exact mem_placeOrigin_of_ne mem other

theorem State.originateOrder_frame (s : State) (key : OriginKey) (role : Role) (cls : Byte) (payload : List Byte) :
    s.OnlyChanges (s.originateOrder key role cls payload) [.path] :=
  (Move.originateOrder (q := true) s key role cls payload (by decide)).onlyChanges

/-! ## The ramp -/

/-- The speed after the ramp step of drive `d`. -/
def State.rampSpeed (s : State) (d : DriveIx) : Int :=
  speedTarget (towardZero (s.drive d).speed (rampStep s.active.gov.decel)) s.governor.ceilingF s.governor.ceilingV

/-- The record of drive `d` after its ramp step. -/
def State.ramped (s : State) (d : DriveIx) : Drive :=
  { s.drive d with
    state := if s.rampSpeed d = 0 then .held else .substituting
    speed := s.rampSpeed d
    subs := min ((s.drive d).subs + 1) 255 }

/-- The substitute of drive `d` for a node. -/
def State.IsSubstitute (s : State) (d : DriveIx) (n : Byte) (o : Originated) : Prop := ∃ seq,
  o = { key := .substitute d
        frame := Frame.build n s.envelope.own codeSpeedOrder flagOrigin seq
          (sbe2 (s.rampSpeed d) ++ [if s.rampSpeed d = 0 then brakeHold else brakeFree]) }

/-- What the ramp steps of the drives in a list do. -/
structure State.Ramps (l : List DriveIx) (s u : State) : Prop where
  frame    : s.OnlyChanges u [.governor, .path, .notices]
  governor : u.governor = { s.governor with drives := u.governor.drives }
  others   : ∀ d, d ∉ l ∨ (s.drive d).state ≠ .substituting → u.drive d = s.drive d
  drives   : ∀ d ∈ l, (s.drive d).state = .substituting → u.drive d = s.ramped d
  orders   : ∀ d ∈ l, (s.drive d).state = .substituting → ∀ n, s.mode = .screen → s.active.nodeOf (.drive d) = some n →
    ∃ o ∈ u.path.origin, s.IsSubstitute d n o
  kept     : ∀ d ∉ l, ∀ o ∈ s.path.origin, o.key = .substitute d → o ∈ u.path.origin

theorem State.Ramps.nil (s : State) : State.Ramps [] s s where
  frame := .refl _ _
  governor := rfl
  others _ _ := rfl
  drives _ mem := by cases mem
  orders _ mem := by cases mem
  kept _ _ _ mem _ := mem

theorem State.substituteStep_frame (s : State) (d : DriveIx) :
    s.OnlyChanges (s.substituteStep d) [.governor, .path, .notices] :=
  (Move.substituteStep (q := true) s d).onlyChanges

theorem State.substituteStep_of_other {d : DriveIx} (h : (s.drive d).state ≠ .substituting) : s.substituteStep d = s := if_neg h

/-- The state in which the ramp step of drive `d` has originated its substitute. -/
def State.rampOrdered (s : State) (d : DriveIx) : State :=
  (s.withDrive d { s.drive d with speed := s.rampSpeed d }).originateOrder (.substitute d) (.drive d) codeSpeedOrder
    (sbe2 (s.rampSpeed d) ++ [if s.rampSpeed d = 0 then brakeHold else brakeFree])

theorem State.rampOrdered_governor (s : State) (d : DriveIx) :
    (s.rampOrdered d).governor = (s.withDrive d { s.drive d with speed := s.rampSpeed d }).governor :=
  State.originateOrder_frame _ _ _ _ _ .governor (by decide)

theorem State.rampOrdered_drive (s : State) (d : DriveIx) :
    (s.rampOrdered d).drive d = { s.drive d with speed := s.rampSpeed d } := by
  rw [State.drive_congr (s.rampOrdered_governor d), State.withDrive_drive_self]

theorem State.substituteStep_of_substituting {d : DriveIx} (h : (s.drive d).state = .substituting) :
    (s.substituteStep d).governor = ((s.rampOrdered d).withDrive d (s.ramped d)).governor ∧
      (s.substituteStep d).path = (s.rampOrdered d).path := by
  have stepped : s.substituteStep d =
      let v := s.rampSpeed d
      let ordered := s.rampOrdered d
      let counted := ordered.withDrive d { ordered.drive d with subs := min ((ordered.drive d).subs + 1) 255 }
      if v = 0 then (counted.withDrive d { counted.drive d with state := .held }).postStale d .held else counted := if_pos h
  rw [stepped]
  dsimp only
  rw [State.rampOrdered_drive]
  by_cases held : s.rampSpeed d = 0
  · rw [if_pos held, State.withDrive_withDrive, State.withDrive_drive_self, State.postStale_governor, State.postStale_path]
    unfold State.ramped
    rw [if_pos held]
    exact ⟨rfl, rfl⟩
  · rw [if_neg held]
    unfold State.ramped
    rw [if_neg held, ← h]
    exact ⟨rfl, rfl⟩

theorem State.substituteStep_ramps (s : State) (d : DriveIx) : State.Ramps [d] s (s.substituteStep d) := by
  by_cases substituting : (s.drive d).state = .substituting
  · obtain ⟨governor, path⟩ := State.substituteStep_of_substituting substituting
    have set : (s.substituteStep d).governor = (s.withDrive d (s.ramped d)).governor := by
      rw [governor]
      simp only [State.withDrive, State.withGovernor_governor, State.rampOrdered_governor, Vector.set_set]
    refine ⟨s.substituteStep_frame d, ?_, fun e other => ?_, fun e mem _ => ?_, fun e mem _ n screen node => ?_,
      fun e other o waits key => ?_⟩
    · rw [set]
      rfl
    · have apart : e ≠ d := fun same => by
        subst same
        exact other.elim (· List.mem_cons_self) (· substituting)
      rw [State.drive_congr set, State.withDrive_drive_of_ne _ apart]
    · cases List.mem_singleton.1 mem
      rw [State.drive_congr set, State.withDrive_drive_self]
    · cases List.mem_singleton.1 mem
      rw [path]
      obtain ⟨seq, mem⟩ := State.originateOrder_mem (s := s.withDrive d { s.drive d with speed := s.rampSpeed d })
        (key := .substitute d) (cls := codeSpeedOrder)
        (payload := sbe2 (s.rampSpeed d) ++ [if s.rampSpeed d = 0 then brakeHold else brakeFree]) screen node
      exact ⟨_, mem, seq, rfl⟩
    · rw [path]
      refine State.originateOrder_keeps waits ?_
      rw [key]
      rintro ⟨⟩
      exact other List.mem_cons_self
  · rw [State.substituteStep_of_other substituting]
    refine ⟨.refl _ _, rfl, fun _ _ => rfl, fun e mem now => ?_, fun e mem now => ?_, fun _ _ _ mem _ => mem⟩ <;>
      (cases List.mem_singleton.1 mem; exact absurd now substituting)

/-- A later drive's step sees what the earlier ones left as it was. -/
theorem State.Ramps.rampSpeed {l : List DriveIx} (h : State.Ramps l s t) {d : DriveIx} (out : d ∉ l) :
    t.rampSpeed d = s.rampSpeed d := by
  unfold State.rampSpeed
  rw [h.others d (.inl out), State.active_congr (h.frame .policy (by decide)), h.governor]

theorem State.Ramps.ramped {l : List DriveIx} (h : State.Ramps l s t) {d : DriveIx} (out : d ∉ l) :
    t.ramped d = s.ramped d := by
  unfold State.ramped
  rw [h.rampSpeed out, h.others d (.inl out)]

theorem State.Ramps.isSubstitute {l : List DriveIx} (h : State.Ramps l s t) {d : DriveIx} (out : d ∉ l) {n : Byte} {o : Originated}
    (is : t.IsSubstitute d n o) : s.IsSubstitute d n o := by
  have envelope : t.envelope = s.envelope := h.frame .envelope (by decide)
  obtain ⟨seq, rfl⟩ := is
  exact ⟨seq, by rw [h.rampSpeed out, envelope]⟩

theorem State.Ramps.cons {d : DriveIx} {l : List DriveIx} (h : State.Ramps [d] s t) (k : State.Ramps l t u) (fresh : d ∉ l) :
    State.Ramps (d :: l) s u := by
  have apart {e : DriveIx} (mem : e ∈ l) : e ∉ [d] := fun same => fresh (List.mem_singleton.1 same ▸ mem)
  have here : d ∈ [d] := List.mem_cons_self
  have mode : t.mode = s.mode := h.frame .mode (by decide)
  have active : t.active = s.active := State.active_congr (h.frame .policy (by decide))
  refine ⟨h.frame.trans k.frame, ?_, fun e other => ?_, fun e mem now => ?_, fun e mem now n screen node => ?_,
    fun e out o waits key => ?_⟩
  · rw [k.governor, h.governor]
  · by_cases mem : e ∈ d :: l
    · have rests := other.resolve_left (not_not.2 mem)
      rw [k.others e (.inr (by rw [h.others e (.inr rests)]; exact rests)), h.others e (.inr rests)]
    · obtain ⟨not, out⟩ := not_or.1 (List.mem_cons.not.1 mem)
      rw [k.others e (.inl out), h.others e (.inl (by simpa using not))]
  · rcases List.mem_cons.1 mem with rfl | mem
    · rw [k.others e (.inl fresh), h.drives e here now]
    · rw [k.drives e mem (by rw [h.others e (.inl (apart mem))]; exact now), h.ramped (apart mem)]
  · rcases List.mem_cons.1 mem with rfl | mem
    · obtain ⟨o, waits, is⟩ := h.orders e here now n screen node
      exact ⟨o, k.kept e fresh o waits (by obtain ⟨seq, rfl⟩ := is; rfl), is⟩
    · obtain ⟨o, waits, is⟩ := k.orders e mem (by rw [h.others e (.inl (apart mem))]; exact now) n (by rw [mode]; exact screen)
        (by rw [active]; exact node)
      exact ⟨o, waits, h.isSubstitute (apart mem) is⟩
  · obtain ⟨not, rest⟩ := not_or.1 (List.mem_cons.not.1 out)
    exact k.kept e rest o (h.kept e (by simpa using not) o waits key) key

theorem State.foldl_substituteStep_ramps {l : List DriveIx} (nodup : l.Nodup) (s : State) :
    State.Ramps l s (l.foldl State.substituteStep s) := by
  induction l generalizing s with
  | nil => exact .nil s
  | cons d l ih =>
      obtain ⟨fresh, nodup⟩ := List.nodup_cons.1 nodup
      exact (s.substituteStep_ramps d).cons (ih nodup _) fresh

theorem State.substituteAll_ramps (s : State) : State.Ramps driveIndices s s.substituteAll :=
  State.foldl_substituteStep_ramps (by decide) s

/-! ## The quarter tick -/

theorem State.toQuarter_frame (s : State) : s.OnlyChanges s.toQuarter [.clock, .rim, .governor, .policy, .notices] := by
  intro blk apart
  cases blk <;> first | rfl | exact absurd (by decide) apart

theorem State.toQuarter_clock (s : State) : s.toQuarter.clock = { s.clock with
    now := s.clock.now + (250 - s.clock.sinceQuarter), sinceQuarter := s.clock.sinceQuarter - 250
    quarters := (s.clock.quarters + 1) % 4 } := by
  have phase : s.clock.sinceQuarter + (250 - s.clock.sinceQuarter) - 250 = s.clock.sinceQuarter - 250 := by omega
  simp only [State.toQuarter, State.withClock_clock, State.advance, quarterMs, phase]

theorem State.toQuarter_governor (s : State) :
    s.toQuarter.governor = { s.governor with drives := s.toQuarter.governor.drives } := by
  rw [State.toQuarter, State.withClock_governor, State.advance]

theorem State.toQuarter_drive (s : State) (d : DriveIx) : s.toQuarter.drive d =
    { s.drive d with stale := (s.drive d).stale.map (· - (250 - s.clock.sinceQuarter)) } := by
  have passed : s.toQuarter.governor = (s.advance (quarterMs - s.clock.sinceQuarter)).governor := by
    rw [State.toQuarter, State.withClock_governor]
  rw [State.drive_congr passed, State.advance_drive, quarterMs]

theorem State.quarter_ramps (s : State) : State.Ramps driveIndices s.toQuarter s.quarter := by
  rw [State.quarter]
  exact s.toQuarter.substituteAll_ramps

/-- Settles O43: the time up to the tick passes, and each drive takes its ramp step by itself. -/
theorem quarterTickRampsDrives : Obligations.QuarterTickRampsDrives := by
  intro s running
  have ramps := s.quarter_ramps
  refine ⟨s.quarter, congrArg Host.Outcome.next (State.takeEvent_running running State.quarter),
    (s.toQuarter_frame.mono (by decide)).trans (ramps.frame.mono (by decide)), ?_, ?_, fun d => ⟨fun rests => ?_, fun now => ?_⟩⟩
  · have stepped := ramps.governor
    rw [s.toQuarter_governor] at stepped
    exact stepped
  · have clock : s.quarter.clock = s.toQuarter.clock := ramps.frame .clock (by decide)
    exact clock.trans s.toQuarter_clock
  · rw [← s.toQuarter_drive] at rests ⊢
    exact ramps.others d (.inr rests)
  · rw [← s.toQuarter_drive] at now ⊢
    refine ⟨ramps.drives d (mem_driveIndices d) now, fun n screen node => ?_⟩
    obtain ⟨o, waits, seq, rfl⟩ := ramps.orders d (mem_driveIndices d) now n screen node
    exact ⟨seq, waits⟩

end Sys2Proof.Machine
end

section
/-! PROOFS. The ride-second tick at the Wind Assessor: a channel's closed second (R96 to R98), the target level (R103), and the
descent (R104). -/

namespace Sys2Proof.Machine

variable {s t u : State}

/-! ## A channel's closed second -/

/-- The record `y` of a channel `x` into which the values of a second have been pushed. -/
structure Channel.Pushed (x : Channel) (v : SecondValues) (y : Channel) : Prop where
  held     : y.held = some v
  gustRing : y.gustRing = (x.gustRing ++ [v.max]).drop (x.gustRing.length + 1 - 3)
  sustRing : y.sustRing = (x.sustRing ++ [v.mean]).drop (x.sustRing.length + 1 - 60)
  sustSum  : y.sustSum = y.sustRing.sum
  filled   : y.filled = y.sustRing.length
  warm     : y.warm = if x.state = .warming then x.warm + 1 else x.warm
  state    : y.state = if x.state = .warming ∧ x.warm + 1 < 3 then .warming else .live

section
variable {x : Channel}

theorem Channel.push_rings (v : SecondValues) : (x.push v).gustRing = pushRing gustPlaces x.gustRing v.max ∧
    (x.push v).sustRing = pushRing sustPlaces x.sustRing v.mean ∧ (x.push v).held = some v := by
  unfold Channel.push
  dsimp only
  split <;> exact ⟨rfl, rfl, rfl⟩

theorem Channel.push_warm (v : SecondValues) : (x.push v).warm = if x.state = .warming then x.warm + 1 else x.warm := by
  unfold Channel.push
  dsimp only
  split <;> rfl

theorem Channel.push_state (closes : x.state = .warming ∨ x.state = .live) (v : SecondValues) :
    (x.push v).state = if x.state = .warming ∧ x.warm + 1 < 3 then .warming else .live := by
  have counted : (x.push v).state =
      if x.state = .warming then (if 3 ≤ x.warm + 1 then .live else .warming) else x.state := by
    unfold Channel.push
    dsimp only
    split <;> rfl
  rw [counted]
  rcases closes with warming | live
  · by_cases third : 3 ≤ x.warm + 1
    · rw [if_pos warming, if_pos third, if_neg fun early => absurd early.2 (Nat.not_lt.2 third)]
    · rw [if_pos warming, if_neg third, if_pos ⟨warming, Nat.not_le.1 third⟩]
  · have other : ¬ x.state = .warming := by rw [live]; nofun
    rw [if_neg other, if_neg fun early => other early.1, live]

/-- What a push keeps: the stale count, the node and the direction. -/
theorem Channel.push_kept (v : SecondValues) : (x.push v).stale = x.stale ∧ (x.push v).node = x.node ∧
    (x.push v).direction = x.direction := by
  unfold Channel.push
  dsimp only
  split <;> exact ⟨rfl, rfl, rfl⟩

/-- A channel that closes a second with values, whatever its stale count becomes. -/
theorem Channel.RingsAgree.pushed (agree : x.RingsAgree) (closes : x.state = .warming ∨ x.state = .live) (n : Nat)
    (v : SecondValues) : x.Pushed v (({ x with stale := n } : Channel).push v).clearBucket := by
  obtain ⟨gust, sust, held⟩ := Channel.push_rings (x := { x with stale := n }) v
  have kept := (agree.withStale n).push v closes
  exact ⟨held, gust.trans (pushRing_eq_drop agree.gust (by decide) _), sust.trans (pushRing_eq_drop agree.sust (by decide) _),
    kept.sum, kept.filled, Channel.push_warm (x := { x with stale := n }) v,
    Channel.push_state (x := { x with stale := n }) closes v⟩

theorem Channel.closeSecond_of_idle (h : ¬ (x.state = .warming ∨ x.state = .live)) : x.closeSecond = x := by
  unfold Channel.closeSecond
  split
  · rfl
  · rfl
  · next warming => exact absurd (.inl warming) h
  · next live => exact absurd (.inr live) h

/-- The rule for a WARMING or LIVE channel. -/
theorem Channel.closeSecond_of_closes (closes : x.state = .warming ∨ x.state = .live) : x.closeSecond =
    if 0 < x.bucketCount then
      (({ x with stale := 0 } : Channel).push { max := x.bucketMax, mean := x.bucketSum / x.bucketCount }).clearBucket
    else if 2 ≤ x.stale then x.goStale.clearBucket
    else (x.held.elim ({ x with stale := x.stale + 1 } : Channel)
      fun v => ({ x with stale := x.stale + 1 } : Channel).push v).clearBucket := by
  unfold Channel.closeSecond
  cases held : x.held <;> rcases closes with state | state <;> simp only [state] <;> rfl

theorem Channel.closeSecond_kept (closes : x.state = .warming ∨ x.state = .live) : x.closeSecond.bucketMax = 0 ∧
    x.closeSecond.bucketSum = 0 ∧ x.closeSecond.bucketCount = 0 ∧ x.closeSecond.node = x.node ∧
    x.closeSecond.direction = x.direction := by
  have pushed (n : Nat) (v : SecondValues) := Channel.push_kept (x := { x with stale := n }) v
  rw [Channel.closeSecond_of_closes closes]
  split
  · obtain ⟨-, node, direction⟩ := pushed 0 { max := x.bucketMax, mean := x.bucketSum / x.bucketCount }
    exact ⟨rfl, rfl, rfl, node, direction⟩
  · split
    · exact ⟨rfl, rfl, rfl, rfl, rfl⟩
    · cases x.held with
      | none => exact ⟨rfl, rfl, rfl, rfl, rfl⟩
      | some v =>
          obtain ⟨-, node, direction⟩ := pushed (x.stale + 1) v
          exact ⟨rfl, rfl, rfl, node, direction⟩

theorem Channel.closeSecond_of_samples (agree : x.RingsAgree) (closes : x.state = .warming ∨ x.state = .live)
    (sampled : 0 < x.bucketCount) :
    x.Pushed { max := x.bucketMax, mean := x.bucketSum / x.bucketCount } x.closeSecond ∧ x.closeSecond.stale = 0 := by
  rw [Channel.closeSecond_of_closes closes, if_pos sampled]
  exact ⟨agree.pushed closes 0 _, (Channel.push_kept (x := { x with stale := 0 }) _).1⟩

theorem Channel.closeSecond_of_held (agree : x.RingsAgree) (closes : x.state = .warming ∨ x.state = .live)
    (empty : x.bucketCount = 0) (fresh : x.stale ≤ 1) {v : SecondValues} (held : x.held = some v) :
    x.Pushed v x.closeSecond ∧ x.closeSecond.stale = x.stale + 1 := by
  rw [Channel.closeSecond_of_closes closes, if_neg (by omega), if_neg (by omega), held]
  exact ⟨agree.pushed closes _ v, (Channel.push_kept (x := { x with stale := x.stale + 1 }) v).1⟩

theorem Channel.closeSecond_of_nothing (closes : x.state = .warming ∨ x.state = .live) (empty : x.bucketCount = 0)
    (fresh : x.stale ≤ 1) (held : x.held = none) :
    x.closeSecond = { x with stale := x.stale + 1, bucketMax := 0, bucketSum := 0, bucketCount := 0 } := by
  rw [Channel.closeSecond_of_closes closes, if_neg (by omega), if_neg (by omega), held]
  rfl

theorem Channel.closeSecond_of_stale (closes : x.state = .warming ∨ x.state = .live) (empty : x.bucketCount = 0)
    (old : 2 ≤ x.stale) : x.closeSecond = x.goStale.clearBucket := by
  rw [Channel.closeSecond_of_closes closes, if_neg (by omega), if_pos old]

end

/-! ## The target level -/

/-- A level that the wind, the blind level or the operator floor asks for. -/
def State.Asks (s : State) (l : Level) : Prop :=
  (l ≠ .opened ∧ (s.raiseGust l ≤ s.wind.effGust ∨ (s.active.wind l).raiseSust ≤ s.wind.effSust)) ∨
    (s.wind.live < s.active.floorsRecord.quorum ∧ l = s.active.floorsRecord.blind) ∨ l = s.wind.floor

theorem State.raisesTo_eq_true {l : Level} : s.raisesTo l = true ↔
    s.raiseGust l ≤ s.wind.effGust ∨ (s.active.wind l).raiseSust ≤ s.wind.effSust := by
  simp [State.raisesTo]

theorem State.belowQuorum_eq_true : s.belowQuorum = true ↔ s.wind.live < s.active.floorsRecord.quorum := by
  simp [State.belowQuorum]

/-- The wind's own target is the highest level whose thresholds are met. -/
theorem State.windTarget_spec (s : State) : (s.windTarget = .opened ∨ s.raisesTo s.windTarget = true) ∧
    ∀ l, l ≠ .opened → s.raisesTo l = true → l.code ≤ s.windTarget.code := by
  unfold State.windTarget
  split_ifs with park unload reduced watch
  · exact ⟨.inr park, fun l _ _ => l.code_le⟩
  · exact ⟨.inr unload, fun l _ met => by cases l <;> first | exact absurd met park | decide⟩
  · exact ⟨.inr reduced, fun l _ met => by cases l <;> first | exact absurd met park | exact absurd met unload | decide⟩
  · exact ⟨.inr watch, fun l _ met => by
      cases l <;> first | exact absurd met park | exact absurd met unload | exact absurd met reduced | decide⟩
  · refine ⟨.inl rfl, fun l above met => ?_⟩
    cases l with
    | opened => exact absurd rfl above
    | watch => exact absurd met watch
    | reduced => exact absurd met reduced
    | unload => exact absurd met unload
    | park => exact absurd met park

theorem Level.max_eq (x y : Level) : x.max y = x ∧ y.code ≤ x.code ∨ x.max y = y ∧ x.code ≤ y.code := by
  unfold Level.max
  split
  · next below => exact .inr ⟨rfl, below.le⟩
  · next reached => exact .inl ⟨rfl, Nat.not_lt.1 reached⟩

/-- The target is the highest level asked for. -/
theorem State.targetLevel_spec (s : State) : s.Asks s.targetLevel ∧ ∀ l, s.Asks l → l.code ≤ s.targetLevel.code := by
  obtain ⟨met, highest⟩ := s.windTarget_spec
  obtain ⟨aboveFloor, aboveBlind⟩ := s.targetLevel_code
  have aboveWind : s.windTarget.code ≤ s.targetLevel.code := by
    unfold State.targetLevel
    split <;> simp only [Level.code_max] <;> omega
  refine ⟨?_, fun l asked => ?_⟩
  · have isWind (x : Level) (same : x = s.windTarget) (floor : s.wind.floor.code ≤ x.code) : s.Asks x := by
      subst same
      rcases met with opened | met
      · rw [opened] at floor ⊢
        exact .inr (.inr (Level.code_injective (Nat.le_zero.1 floor).symm))
      · by_cases opened : s.windTarget = .opened
        · rw [opened] at floor ⊢
          exact .inr (.inr (Level.code_injective (Nat.le_zero.1 floor).symm))
        · exact .inl ⟨opened, State.raisesTo_eq_true.1 met⟩
    unfold State.targetLevel at aboveFloor ⊢
    generalize asked : (if s.belowQuorum then s.windTarget.max s.active.floorsRecord.blind else s.windTarget) = x at *
    rcases x.max_eq s.wind.floor with ⟨same, floor⟩ | ⟨same, -⟩
    · rw [same]
      split at asked
      · next few =>
        rcases s.windTarget.max_eq s.active.floorsRecord.blind with ⟨wind, -⟩ | ⟨blind, -⟩
        · exact isWind x (asked.symm.trans wind) floor
        · exact .inr (.inl ⟨State.belowQuorum_eq_true.1 few, asked.symm.trans blind⟩)
      · exact isWind x asked.symm floor
    · exact .inr (.inr same)
  · rcases asked with ⟨above, met⟩ | ⟨few, rfl⟩ | rfl
    · exact (highest l above (State.raisesTo_eq_true.2 met)).trans aboveWind
    · exact aboveBlind (State.belowQuorum_eq_true.2 few)
    · exact aboveFloor

/-! ## The level's part of a tick -/

/-- The clear condition of the level (R104). -/
def State.Clear (s : State) : Prop :=
  s.wind.effGust < s.clearGust s.wind.level ∧ s.wind.effSust < (s.active.wind s.wind.level).clearSust ∧
    (¬ s.wind.live < s.active.floorsRecord.quorum ∨ s.active.floorsRecord.blind.code < s.wind.level.code) ∧
    s.wind.floor.code < s.wind.level.code

theorem State.levelClear_eq_true : s.levelClear = true ↔ s.Clear := by
  have few : s.belowQuorum = false ↔ ¬ s.wind.live < s.active.floorsRecord.quorum := by
    rw [← State.belowQuorum_eq_true, Bool.not_eq_true]
  simp only [State.levelClear, State.Clear, Bool.and_eq_true, Bool.or_eq_true, Bool.not_eq_true', decide_eq_true_eq, few, and_assoc]

/-- The level and the countdown after a tick. -/
structure State.LevelMoves (s : State) (level : Level) (countdown : Nat) : Prop where
  rises : s.wind.level.code < s.targetLevel.code → level = s.targetLevel ∧ countdown = s.active.holdDown s.targetLevel
  rests : s.targetLevel.code ≤ s.wind.level.code → s.wind.level = .opened → level = .opened ∧ countdown = 0
  falls : s.targetLevel.code ≤ s.wind.level.code → s.wind.level ≠ .opened → s.Clear → s.wind.countdown ≤ 1 →
    level = s.wind.level.down ∧ countdown = s.active.holdDown s.wind.level.down
  counts : s.targetLevel.code ≤ s.wind.level.code → s.wind.level ≠ .opened → s.Clear → 1 < s.wind.countdown →
    level = s.wind.level ∧ countdown = s.wind.countdown - 1
  holds : s.targetLevel.code ≤ s.wind.level.code → s.wind.level ≠ .opened → ¬ s.Clear →
    level = s.wind.level ∧ countdown = s.active.holdDown s.wind.level

theorem State.tickLevel_moves (s : State) : ∃ level countdown sent,
    s.tickLevel.wind = { s.wind with level := level, countdown := countdown, sent := sent } ∧ s.LevelMoves level countdown := by
  unfold State.tickLevel State.descend
  split_ifs with below opened clear ended
  · obtain ⟨sent, wind⟩ := s.changeLevel_wind s.targetLevel
    exact ⟨_, _, sent, wind, fun _ => ⟨rfl, rfl⟩, fun _ => by omega, fun _ => by omega, fun _ => by omega, fun _ => by omega⟩
  · exact ⟨_, _, s.wind.sent, rfl, fun _ => absurd ‹_› below, fun _ _ => ⟨opened, rfl⟩, fun _ above => absurd opened above,
      fun _ above => absurd opened above, fun _ above => absurd opened above⟩
  · obtain ⟨sent, wind⟩ := s.changeLevel_wind s.wind.level.down
    exact ⟨_, _, sent, wind, fun _ => absurd ‹_› below, fun _ at_ => absurd at_ opened, fun _ _ _ _ => ⟨rfl, rfl⟩,
      fun _ _ _ _ => by omega, fun _ _ blocked => absurd (State.levelClear_eq_true.1 clear) blocked⟩
  · exact ⟨_, _, s.wind.sent, rfl, fun _ => absurd ‹_› below, fun _ at_ => absurd at_ opened, fun _ _ _ _ => absurd ‹_› ended,
      fun _ _ _ _ => ⟨rfl, rfl⟩, fun _ _ blocked => absurd (State.levelClear_eq_true.1 clear) blocked⟩
  · exact ⟨_, _, s.wind.sent, rfl, fun _ => absurd ‹_› below, fun _ at_ => absurd at_ opened,
      fun _ _ freed => absurd (State.levelClear_eq_true.2 freed) clear,
      fun _ _ freed => absurd (State.levelClear_eq_true.2 freed) clear, fun _ _ _ => ⟨rfl, rfl⟩⟩

/-! ## The tick at both takers -/

/-- What the Wind Assessor's part of a tick rests on is the same. -/
structure State.SameWind (s t : State) : Prop where
  wind     : ∃ sent, t.wind = { s.wind with sent := sent }
  active   : t.active = s.active
  envelope : t.envelope = s.envelope

theorem State.clockTick_sameWind (s : State) : s.SameWind s.clockTick := by
  have inputs := (Move.clockTick s).inputs
  refine ⟨?_, inputs.active, inputs.envelope⟩
  unfold State.clockTick
  dsimp only
  split
  · obtain ⟨sent, wind⟩ := (s.withClock s.clock.tick).postClose.sweepAdd_wind .close .alarm
    exact ⟨sent, by rw [wind, State.postClose, State.post_wind, State.withClock_wind]⟩
  · exact ⟨s.wind.sent, rfl⟩

theorem WindAssessor.eq_withSent (w : WindAssessor) : ∃ sent, w = { w with sent := sent } := ⟨w.sent, rfl⟩

/-- A ride-second tick at the Wind Assessor, before or behind the ride clock's part. -/
theorem State.secondTick_wind (s : State) (clockFirst : Bool) : ∃ u sent, s.SameWind u ∧
    (s.secondTick clockFirst).wind = { u.windTick.wind with sent := sent } := by
  cases clockFirst with
  | true =>
      rw [s.secondTick_clockFirst]
      obtain ⟨sent, wind⟩ := s.clockTick.windTick.wind.eq_withSent
      exact ⟨s.clockTick, sent, s.clockTick_sameWind, wind⟩
  | false =>
      rw [s.secondTick_windFirst]
      obtain ⟨sent, wind⟩ := s.windTick.clockTick_sameWind.wind
      exact ⟨s, sent, ⟨⟨s.wind.sent, rfl⟩, rfl, rfl⟩, wind⟩

theorem State.leadNow_congr (h : t.wind.channels = s.wind.channels) : t.leadNow = s.leadNow := by
  unfold State.leadNow
  rw [State.liveChannels_congr h, h]

theorem State.recomputeWind_spec (s : State) : let c := s.recomputeWind
    c.wind.live = c.liveChannels.length ∧ c.wind.lead = c.leadNow ∧
      c.wind.effGust = (c.liveChannels.map fun i => (c.wind.channels[i]).gust).foldl max 0 ∧
      c.wind.effSust = (c.liveChannels.map fun i => (c.wind.channels[i]).sustained).foldl max 0 :=
  ⟨rfl, rfl, rfl, rfl⟩

/-- The state in which the tick judges the level: what it keeps, and that its effective wind is that of its channels. -/
theorem State.secondClosed_spec (s : State) : let c := s.secondClosed
    c.active = s.active ∧ c.envelope = s.envelope ∧ c.wind.level = s.wind.level ∧ c.wind.floor = s.wind.floor ∧
      c.wind.countdown = s.wind.countdown ∧ (∀ i : ChannelIx, c.wind.channels[i] = (s.wind.channels[i]).closeSecond) ∧
      c.wind.live = c.liveChannels.length ∧ c.wind.lead = c.leadNow ∧
      c.wind.effGust = (c.liveChannels.map fun i => (c.wind.channels[i]).gust).foldl max 0 ∧
      c.wind.effSust = (c.liveChannels.map fun i => (c.wind.channels[i]).sustained).foldl max 0 := by
  have inputs := s.secondClosed_move.inputs
  have countdown : s.secondClosed.wind.countdown = s.wind.countdown := by
    rw [State.secondClosed, State.recomputeWind_countdown, s.tickChannels_wind]
  have channels : s.secondClosed.wind.channels = Vector.ofFn fun i => (s.wind.channels[i]).closeSecond := by
    rw [State.secondClosed, State.recomputeWind_channels, s.tickChannels_wind]
  refine ⟨inputs.active, inputs.envelope, inputs.level, inputs.floor, countdown, fun i => ?_, ?_⟩
  · rw [channels, Fin.getElem_fin, Vector.getElem_ofFn]
  · rw [State.secondClosed]
    exact State.recomputeWind_spec _

/-- Settles O41: the channels close their second, and the level moves as the state so reached asks. -/
theorem rideSecondMovesTheLevel : Obligations.RideSecondMovesTheLevel := by
  intro clockFirst s running
  obtain ⟨u, sent, ⟨⟨sentBefore, before⟩, sameActive, sameEnvelope⟩, ticked⟩ := s.secondTick_wind clockFirst
  obtain ⟨active, envelope, level, floor, countdown, channels, live, lead, gust, sust⟩ := u.secondClosed_spec
  obtain ⟨newLevel, newCountdown, newSent, tick, moves⟩ := u.secondClosed.tickLevel_moves
  rw [u.windTick_eq, tick] at ticked
  simp only [before] at level floor countdown channels
  rw [sameActive] at active
  rw [sameEnvelope] at envelope
  refine ⟨_, congrArg Host.Outcome.next (State.takeEvent_running running (·.secondTick clockFirst)), ?_⟩
  generalize closed : (s.secondTick clockFirst).close = t
  have wind : t.wind = { u.secondClosed.wind with level := newLevel, countdown := newCountdown, sent := sent } := by
    rw [← closed, State.close_wind, ticked]
  generalize u.secondClosed = c at *
  have sameChannels : t.wind.channels = c.wind.channels := by rw [wind]
  rw [State.liveChannels_congr sameChannels, State.leadNow_congr sameChannels, wind, ← active, ← envelope, ← level, ← floor,
    ← countdown]
  obtain ⟨asked, highest⟩ := c.targetLevel_spec
  refine ⟨fun i agree => ?_, live, lead, gust, sust, rfl, c.targetLevel, asked, highest, moves.rises, fun reached =>
    ⟨moves.rests reached, moves.falls reached, moves.counts reached, moves.holds reached⟩⟩
  dsimp only
  rw [channels i]
  generalize s.wind.channels[i] = x at agree ⊢
  have pushed {v : SecondValues} {y : Channel} (h : x.Pushed v y) := And.intro h.held (And.intro h.gustRing
    (And.intro h.sustRing (And.intro h.sustSum (And.intro h.filled (And.intro h.warm h.state)))))
  refine ⟨Channel.closeSecond_of_idle, Channel.closeSecond_kept, fun closes sampled => ?_, fun v closes empty fresh held => ?_,
    Channel.closeSecond_of_nothing, fun closes empty old => ?_⟩
  · obtain ⟨values, stale⟩ := Channel.closeSecond_of_samples agree closes sampled
    exact ⟨pushed values, stale⟩
  · obtain ⟨values, stale⟩ := Channel.closeSecond_of_held agree closes empty fresh held
    exact ⟨pushed values, stale⟩
  · rw [Channel.closeSecond_of_stale closes empty old]
    exact ⟨rfl, rfl, rfl, rfl, rfl, rfl, rfl⟩

end Sys2Proof.Machine
end

section
/-! PROOFS. Records that the sweep, the level and the banks leave alone: a cabin's record but for its mark and pass count, and
the drives. -/

namespace Sys2Proof.Machine

variable {s t u : State}

/-- Each cabin's record is as it was but for mark and pass count, and so is each drive's. -/
structure State.KeepsRecords (s t : State) : Prop where
  cabins : ∀ c, t.cabin c = { s.cabin c with mark := (t.cabin c).mark, passes := (t.cabin c).passes }
  drives : t.governor.drives = s.governor.drives

namespace State.KeepsRecords

theorem refl (s : State) : s.KeepsRecords s := ⟨fun _ => rfl, rfl⟩

theorem trans (h : s.KeepsRecords t) (k : t.KeepsRecords u) : s.KeepsRecords u :=
  ⟨fun c => (k.cabins c).trans (by rw [h.cabins c]), k.drives.trans h.drives⟩

theorem of_eq (cabins : t.cabins = s.cabins) (drives : t.governor.drives = s.governor.drives) : s.KeepsRecords t :=
  ⟨fun c => by rw [State.cabin_congr cabins], drives⟩

theorem of_frame {bs : List Block} (h : s.OnlyChanges t bs) (cabins : Block.cabins ∉ bs) (governor : Block.governor ∉ bs) :
    s.KeepsRecords t :=
  of_eq (h .cabins cabins) (congrArg Governor.drives (h .governor governor))

theorem occupancy (h : s.KeepsRecords t) (c : Nat) : (t.cabin c).occupancy = (s.cabin c).occupancy := by rw [h.cabins c]

theorem door (h : s.KeepsRecords t) (c : Nat) : (t.cabin c).door = (s.cabin c).door := by rw [h.cabins c]

/-- A record with another mark and pass count. -/
theorem remark (s : State) (c passes : Nat) (mark : Option SweepMark) :
    s.KeepsRecords (s.withCabin c { s.cabin c with mark := mark, passes := passes }) := by
  refine ⟨fun d => ?_, by rw [State.withCabin_governor]⟩
  rw [State.withCabin_cabin]
  split
  · next same => rw [same.1]
  · rfl

theorem withSweep (s : State) (x : SweepScheduler) : s.KeepsRecords (s.withSweep x) := of_eq rfl rfl

theorem foldl {α : Type} {f : State → α → State} (h : ∀ (s : State) (a : α), s.KeepsRecords (f s a)) (l : List α) (s : State) :
    s.KeepsRecords (l.foldl f s) := by
  induction l generalizing s with
  | nil => exact refl s
  | cons a l ih => exact (h s a).trans (ih _)

theorem appendCabin (s : State) (c : Nat) : s.KeepsRecords (s.appendCabin c) :=
  (withSweep s _).trans (remark _ c (s.cabin c).passes (some .pending))

theorem removeCabin (s : State) (c : Nat) : s.KeepsRecords (s.removeCabin c) :=
  (withSweep s _).trans (remark _ c (s.cabin c).passes none)

theorem appendQualifying (s : State) : s.KeepsRecords s.appendQualifying := foldl appendCabin _ s

theorem buildList (s : State) : s.KeepsRecords s.buildList :=
  (appendQualifying s).trans (foldl (fun s c => remark s c 0 (s.cabin c).mark) _ _)

theorem clearList (s : State) : s.KeepsRecords s.clearList := by
  refine ⟨fun c => ?_, rfl⟩
  by_cases isSlot : 1 ≤ c ∧ c ≤ 64
  · rw [State.clearList_cabin isSlot.1 isSlot.2]
  · rw [State.cabin_of_no_slot isSlot, State.cabin_of_no_slot isSlot]

theorem addCause (s : State) (c : Cause) : s.KeepsRecords (s.addCause c) := by
  unfold State.addCause
  dsimp only
  split
  · exact refl s
  · split
    · exact (withSweep s _).trans (buildList _)
    · exact (withSweep s _).trans (appendQualifying _)

theorem removeCause (s : State) (c : Cause) : s.KeepsRecords (s.removeCause c) := by
  unfold State.removeCause
  dsimp only
  split
  · split
    · exact withSweep s _
    · exact (withSweep s _).trans (clearList _)
  · exact refl s

theorem finishSweep (s before : State) (src : SweepSource) : s.KeepsRecords (s.finishSweep before src) :=
  of_frame (s.finishSweep_frame before src) (by decide) (by decide)

theorem refreshBeacons (s : State) : s.KeepsRecords s.refreshBeacons :=
  of_frame (Move.refreshBeacons (q := true) s).onlyChanges (by decide) (by decide)

theorem reportClose (s : State) (before : SweepScheduler) : s.KeepsRecords (s.reportClose before) :=
  of_frame (s.reportClose_frame before) (by decide) (by decide)

theorem sweepAdd (s : State) (c : Cause) (src : SweepSource) : s.KeepsRecords (s.sweepAdd c src) := by
  unfold State.sweepAdd
  split
  · exact refl s
  · exact ((addCause s c).trans (finishSweep _ _ _)).trans (reportClose _ _)

theorem sweepRemove (s : State) (c : Cause) (src : SweepSource) : s.KeepsRecords (s.sweepRemove c src) := by
  unfold State.sweepRemove
  split
  · exact ((removeCause s c).trans (finishSweep _ _ _)).trans (reportClose _ _)
  · exact refl s

theorem sweepLevel (s : State) : s.KeepsRecords s.sweepLevel := by
  unfold State.sweepLevel
  refine State.KeepsRecords.trans ?_ (finishSweep _ _ _)
  split
  · exact addCause s _
  · exact removeCause s _

theorem setServed (s : State) (c : Nat) (v : Bool) : s.KeepsRecords (s.setServed c v) := by
  unfold State.setServed
  split
  · exact refl s
  · exact withSweep s _

theorem sweepCycle (s : State) (c : Nat) : s.KeepsRecords (s.sweepCycle c) := by
  unfold State.sweepCycle
  dsimp only
  split
  · exact setServed s c true
  · refine State.KeepsRecords.trans ?_ (finishSweep _ _ _)
    split
    · split
      · exact setServed s c true
      · exact removeCabin s c
    · split
      · exact (appendCabin s c).trans (setServed _ c true)
      · exact setServed s c true

theorem sweepPass (s : State) (c : Nat) (berth : Berth) : s.KeepsRecords (s.sweepPass c berth) := by
  have moved : s.KeepsRecords (s.toTail c) := withSweep s _
  unfold State.sweepPass
  dsimp only
  split
  · exact moved.trans (remark _ c _ _)
  · split
    · exact (moved.trans (remark _ c _ _)).trans (of_frame (State.post_frame _ _ _ _ _ _ _ _) (by decide) (by decide))
    · exact moved.trans (remark _ c _ _)

theorem sweepExit (s : State) (c : Nat) (berth : Berth) : s.KeepsRecords (s.sweepExit c berth) := by
  unfold State.sweepExit
  dsimp only
  split
  · exact refl s
  · refine State.KeepsRecords.trans ?_ (finishSweep _ _ _)
    split
    · split
      · exact withSweep s _
      · exact sweepPass s c berth
    · exact removeCabin s c

theorem recomputeCeilings (s : State) : s.KeepsRecords s.recomputeCeilings := of_eq rfl rfl

theorem recomputeBoarding (s : State) : s.KeepsRecords s.recomputeBoarding := of_eq rfl rfl

theorem changeLevel (s : State) (l : Level) : s.KeepsRecords (s.changeLevel l) := by
  have set : s.KeepsRecords (s.levelSet l) :=
    of_eq ((s.levelSet_frame l) .cabins (by decide)) (by
      rw [State.levelSet, (recomputeCeilings _).drives, State.postLevel, State.post_governor, State.withWind_governor])
  rw [State.changeLevel_eq]
  exact (set.trans (sweepLevel _)).trans (refreshBeacons _)

theorem applyFloors (s : State) : s.KeepsRecords s.applyFloors := by
  unfold State.applyFloors State.raiseLevel
  split
  · exact changeLevel s _
  · exact refl s

theorem resendBeacons (s : State) : s.KeepsRecords s.resendBeacons :=
  of_frame (Move.resendBeacons (q := true) s).onlyChanges (by decide) (by decide)

theorem windRestart (s : State) : s.KeepsRecords s.windRestart := by
  have emptied (w : WindAssessor) : s.KeepsRecords (s.withWind w).recomputeWind := of_eq rfl rfl
  rw [State.windRestart]
  exact ((emptied _).trans (applyFloors _)).trans (resendBeacons _)

theorem trimCountdown (s : State) : s.KeepsRecords s.trimCountdown := of_eq rfl rfl

theorem windBankChange (s : State) : s.KeepsRecords s.windBankChange := by
  have assigned : Move true [.wind, .notices] s s.reassigned :=
    .trans (.foldl Move.reassignChannel _ _) ((Move.recomputeWind _).mono (by decide))
  have reassigned : s.KeepsRecords s.reassigned := of_frame assigned.onlyChanges (by decide) (by decide)
  rw [State.windBankChange_eq]
  refine State.KeepsRecords.trans ?_ (resendBeacons _)
  split
  · exact reassigned.trans (applyFloors _)
  · exact reassigned.trans (trimCountdown _)

theorem rimBankChange (s : State) : s.KeepsRecords s.rimBankChange :=
  of_frame (Move.rimBankChange (q := true) s).onlyChanges (by decide) (by decide)

theorem takeBank (s : State) : s.KeepsRecords s.takeBank :=
  ((rimBankChange s).trans (windBankChange _)).trans (recomputeBoarding _)

theorem warmRestart (s : State) : s.KeepsRecords s.warmRestart := by
  have cleared : s.KeepsRecords s.cleared := of_eq rfl rfl
  have served (u : State) : u.KeepsRecords
      ((u.withSweep { u.sweep with served := Vector.replicate 64 false }).recomputeBoarding.endRestart) := of_eq rfl rfl
  rw [State.warmRestart_eq]
  exact (cleared.trans (windRestart _)).trans (served _)

theorem post (s : State) (kind : NoticeKind) (m : Bool) (x d0 d1 d2 d3 : Byte) :
    s.KeepsRecords (s.post kind m x d0 d1 d2 d3) :=
  of_frame (s.post_frame kind m x d0 d1 d2 d3) (by decide) (by decide)

end State.KeepsRecords

/-! ## What a warm restart leaves in the queues -/

/-- Within a restart: notices are held back for the close, and only beacon orders join the origin queue. -/
structure State.Withholds (s t : State) : Prop where
  path    : ∃ origin seq, t.path = { s.path with origin := origin, fieldSeq := seq } ∧
    ∀ o ∈ origin, o ∈ s.path.origin ∨ ∃ berth, o.key = .beacon berth
  notices : s.notices.restarting = true → ∃ held, t.notices = { s.notices with atClose := held }

namespace State.Withholds

theorem refl (s : State) : s.Withholds s := ⟨⟨_, _, rfl, fun _ mem => .inl mem⟩, fun _ => ⟨_, rfl⟩⟩

theorem of_eq (path : t.path = s.path) (notices : t.notices = s.notices) : s.Withholds t := by
  refine ⟨⟨s.path.origin, s.path.fieldSeq, ?_, fun _ mem => .inl mem⟩, fun _ => ⟨s.notices.atClose, ?_⟩⟩
  · rw [path]
  · rw [notices]

theorem of_frame {bs : List Block} (h : s.OnlyChanges t bs) (path : Block.path ∉ bs) (notices : Block.notices ∉ bs) :
    s.Withholds t := of_eq (h .path path) (h .notices notices)

theorem trans (h : s.Withholds t) (k : t.Withholds u) : s.Withholds u := by
  obtain ⟨⟨origin, seq, path, mem⟩, notices⟩ := h
  obtain ⟨⟨origin', seq', path', mem'⟩, notices'⟩ := k
  refine ⟨⟨origin', seq', by rw [path', path], fun o waits => ?_⟩, fun restarting => ?_⟩
  · refine (mem' o waits).elim (fun before => ?_) .inr
    rw [path] at before
    exact mem o before
  · obtain ⟨held, same⟩ := notices restarting
    obtain ⟨held', same'⟩ := notices' (by rw [same]; exact restarting)
    exact ⟨held', by rw [same', same]⟩

theorem post (s : State) (kind : NoticeKind) (m : Bool) (x d0 d1 d2 d3 : Byte) :
    s.Withholds (s.post kind m x d0 d1 d2 d3) := by
  refine ⟨⟨s.path.origin, s.path.fieldSeq, s.post_path .., fun _ mem => .inl mem⟩, fun restarting => ?_⟩
  unfold State.post State.deliver
  rw [if_pos restarting]
  exact ⟨_, rfl⟩

theorem finishSweep (s before : State) (src : SweepSource) : s.Withholds (s.finishSweep before src) := by
  have set (x : SweepScheduler) : s.Withholds (s.withSweep x) := of_eq rfl rfl
  unfold State.finishSweep
  dsimp only
  split
  · exact (set _).trans (post _ _ _ _ _ _ _ _)
  · exact set _

theorem sweepLevel (s : State) : s.Withholds s.sweepLevel := by
  unfold State.sweepLevel
  refine State.Withholds.trans ?_ (finishSweep _ _ _)
  split
  · exact of_frame (Move.addCause (q := true) s .wind).onlyChanges (by decide) (by decide)
  · exact of_frame (Move.removeCause (q := true) s .wind).onlyChanges (by decide) (by decide)

theorem mem_of_placeOrigin {o w : Originated} {l : List Originated} (mem : w ∈ placeOrigin o l) : w ∈ l ∨ w = o := by
  induction l with
  | nil => exact .inr (List.mem_singleton.1 mem)
  | cons v l ih =>
    unfold placeOrigin at mem
    split at mem
    · rcases List.mem_cons.1 mem with same | rest
      · exact .inr same
      · exact .inl (List.mem_cons_of_mem _ rest)
    · rcases List.mem_cons.1 mem with same | rest
      · exact .inl (List.mem_cons.2 (.inl same))
      · exact (ih rest).imp_left (List.mem_cons_of_mem _)

theorem refreshBeacon (s : State) (berth : Berth) : s.Withholds (s.refreshBeacon berth) := by
  have set (u : State) (x : WindAssessor) : u.Withholds (u.withWind x) := of_eq rfl rfl
  have ordered (n : Byte) (payload : List Byte) : s.Withholds (s.originate (.beacon berth) n codeBeaconOrder payload) := by
    refine ⟨⟨_, _, rfl, fun o mem => ?_⟩, fun _ => ⟨_, rfl⟩⟩
    exact (mem_of_placeOrigin mem).imp_right fun same => ⟨berth, by rw [same]⟩
  unfold State.refreshBeacon
  split
  · exact set s _
  · split
    · exact refl s
    · exact (ordered _ _).trans (set _ _)

theorem refreshBeacons (s : State) : s.Withholds s.refreshBeacons := (refreshBeacon s .a).trans (refreshBeacon _ .b)

theorem changeLevel (s : State) (l : Level) : s.Withholds (s.changeLevel l) := by
  have level (x : WindAssessor) : s.Withholds (s.withWind x) := of_eq rfl rfl
  have told (u : State) (old : Level) : u.Withholds (u.postLevel old) := post _ _ _ _ _ _ _ _
  have recomputed (u : State) : u.Withholds u.recomputeCeilings := of_eq rfl rfl
  rw [State.changeLevel_eq]
  exact ((((level _).trans (told _ _)).trans (recomputed _)).trans (sweepLevel _)).trans (refreshBeacons _)

theorem applyFloors (s : State) : s.Withholds s.applyFloors := by
  unfold State.applyFloors State.raiseLevel
  split
  · exact changeLevel s _
  · exact refl s

theorem windRestart (s : State) : s.Withholds s.windRestart := by
  have emptied (w : WindAssessor) : s.Withholds (s.withWind w).recomputeWind := of_eq rfl rfl
  have forgot (u : State) (w : WindAssessor) : u.Withholds (u.withWind w) := of_eq rfl rfl
  rw [State.windRestart]
  exact ((emptied _).trans (applyFloors _)).trans ((forgot _ _).trans (refreshBeacons _))

end State.Withholds

end Sys2Proof.Machine
end

section
/-! PROOFS. Warm restart (R186), the ends of a commit (R165 to R169, R171), and the revert (R170). -/

namespace Sys2Proof.Machine

variable {s t u : State}

/-! ## Warm restart -/

/-- What a warm restart leaves. -/
structure State.Restarted (s u : State) : Prop where
  queues       : u.path.supForward = [] ∧ u.path.part = [] ∧ u.path.fldForward = [] ∧ u.path.runCount = 0 ∧ u.path.supSeq = 0
  origin       : ∀ o ∈ u.path.origin, ∃ berth, o.key = .beacon berth
  transmitters : u.path.supTx = s.path.supTx ∧ u.path.fldTx = s.path.fldTx
  notices      : ∃ held, u.notices = { NoticeUnit.reset with atClose := held }
  rim          : u.rim = RimTracker.reset
  grants       : u.board.grants = { a := none, b := none }
  gates        : u.board.gates = { a := GatePicture.unknown, b := GatePicture.unknown }
  conditions   : u.ConditionsAgree
  ceilings     : u.CeilingsAgree
  channels     : ∀ c : ChannelIx, u.wind.channels[c] = (s.wind.channels[c]).restarted
  level        : s.wind.level.code ≤ u.wind.level.code
  served       : ∀ i : Fin 64, u.sweep.served[i] = false
  records      : s.KeepsRecords u
  latch        : u.governor.latch = s.governor.latch
  frame        : s.OnlyChanges u [.policy, .rim, .board, .wind, .governor, .sweep, .cabins, .path, .notices]

/-- The restart's steps behind the Wind Assessor's part. -/
def State.restartEnd (s : State) : State :=
  (s.withSweep { s.sweep with served := Vector.replicate 64 false }).recomputeBoarding.endRestart

theorem State.warmRestart_eq_restartEnd (s : State) : s.warmRestart = s.cleared.windRestart.restartEnd := rfl

section
variable (s : State)
theorem State.restartEnd_path : s.restartEnd.path = s.path := rfl
theorem State.restartEnd_notices : s.restartEnd.notices = { s.notices with restarting := false } := rfl
theorem State.restartEnd_rim : s.restartEnd.rim = s.rim := rfl
theorem State.restartEnd_wind : s.restartEnd.wind = s.wind := rfl
theorem State.restartEnd_grants : s.restartEnd.board.grants = s.board.grants := rfl
theorem State.restartEnd_gates : s.restartEnd.board.gates = s.board.gates := rfl
theorem State.restartEnd_latch : s.restartEnd.governor.latch = s.governor.latch := rfl
theorem State.restartEnd_served (i : Fin 64) : s.restartEnd.sweep.served[i] = false :=
  Vector.getElem_replicate (n := 64) i.isLt

theorem State.endRestart_inputs : s.SameInputs s.endRestart :=
  .of_frame ((Move.endRestart (q := true) (bs := [.notices]) s (by decide)).onlyChanges.mono (by decide))

theorem State.restartEnd_conditions : s.restartEnd.ConditionsAgree :=
  (State.endRestart_inputs _).conditionsAgree (State.recomputeBoarding_conditions _)

theorem State.restartEnd_ceilings : s.restartEnd.CeilingsAgree :=
  (State.endRestart_inputs _).ceilingsAgree (State.recomputeBoarding_ceilings _)

theorem State.cleared_path : s.cleared.path = s.path.restarted := rfl
theorem State.cleared_notices : s.cleared.notices = NoticeUnit.restarted := rfl
theorem State.cleared_rim : s.cleared.rim = RimTracker.reset := rfl
theorem State.cleared_board : s.cleared.board = s.board.restarted := rfl
theorem State.cleared_wind : s.cleared.wind = s.wind := rfl
theorem State.cleared_governor : s.cleared.governor = s.governor := rfl

theorem State.windRestart_level : s.wind.level.code ≤ s.windRestart.wind.level.code := by
  obtain ⟨_, resent⟩ := State.resendBeacons_wind (State.applyFloors
    (State.recomputeWind (s.withWind { s.wind with channels := Vector.ofFn fun c => (s.wind.channels[c]).restarted })))
  obtain ⟨_, _, floored⟩ := State.applyFloors_wind
    (State.recomputeWind (s.withWind { s.wind with channels := Vector.ofFn fun c => (s.wind.channels[c]).restarted }))
  rw [State.windRestart, resent, floored]
  dsimp only
  rw [Level.code_max, State.recomputeWind_level, State.withWind_wind]
  exact le_max_left _ _

theorem State.warmRestart_restarted : s.Restarted s.warmRestart := by
  have moved : s.cleared.OnlyChanges s.cleared.windRestart levelBlocks := (Move.windRestart _).onlyChanges
  have rim : s.cleared.windRestart.rim = s.cleared.rim := moved .rim (by decide)
  have board : s.cleared.windRestart.board = s.cleared.board := moved .board (by decide)
  have latch := s.cleared.windRestart_latch
  have level := s.cleared.windRestart_level
  have channels := s.cleared.windRestart_channels
  obtain ⟨⟨origin, seq, path, beacons⟩, notices⟩ := State.Withholds.windRestart s.cleared
  obtain ⟨held, notices⟩ := notices rfl
  have records := State.KeepsRecords.warmRestart s
  have frame : s.OnlyChanges s.warmRestart restartBlocks := (Move.warmRestart s).onlyChanges
  rw [s.cleared_path] at path beacons
  rw [s.cleared_notices] at notices
  rw [s.cleared_rim] at rim
  rw [s.cleared_board] at board
  rw [s.cleared_wind] at level channels
  rw [s.cleared_governor] at latch
  rw [s.warmRestart_eq_restartEnd] at records frame ⊢
  generalize s.cleared.windRestart = w at *
  constructor
  case queues => rw [w.restartEnd_path, path]; exact ⟨rfl, rfl, rfl, rfl, rfl⟩
  case origin =>
    rw [w.restartEnd_path, path]
    exact fun o mem => (beacons o mem).resolve_left List.not_mem_nil
  case transmitters => rw [w.restartEnd_path, path]; exact ⟨rfl, rfl⟩
  case notices => rw [w.restartEnd_notices, notices]; exact ⟨held, rfl⟩
  case rim => rw [w.restartEnd_rim, rim]
  case grants => rw [w.restartEnd_grants, board]; rfl
  case gates => rw [w.restartEnd_gates, board]; rfl
  case conditions => exact w.restartEnd_conditions
  case ceilings => exact w.restartEnd_ceilings
  case channels =>
    intro c
    rw [w.restartEnd_wind, channels, Fin.getElem_fin, Vector.getElem_ofFn]
  case level => rw [w.restartEnd_wind]; exact level
  case served => exact w.restartEnd_served
  case records => exact records
  case latch => rw [w.restartEnd_latch, latch]
  case frame => exact frame.mono (by decide)

end

/-- A restart that is carried out once its mark is cleared. -/
theorem State.Restarted.of_policy {p : PolicyStore} (h : (s.withPolicy p).Restarted u) : s.Restarted u where
  queues := h.queues
  origin := h.origin
  transmitters := h.transmitters
  notices := h.notices
  rim := h.rim
  grants := h.grants
  gates := h.gates
  conditions := h.conditions
  ceilings := h.ceilings
  channels := h.channels
  level := h.level
  served := h.served
  records := ⟨h.records.cabins, h.records.drives⟩
  latch := h.latch
  frame := ((Move.withPolicy (q := false) (bs := [.policy]) s p (by decide) nofun).onlyChanges.mono (by decide)).trans h.frame

theorem State.carryOutDeferred_of_none (h : s.policy.deferred = false) : s.carryOutDeferred = s := if_neg (by rw [h]; nofun)

theorem State.carryOutDeferred_restarted (h : s.policy.deferred = true) : s.Restarted s.carryOutDeferred := by
  unfold State.carryOutDeferred
  rw [if_pos h]
  exact (State.warmRestart_restarted _).of_policy

theorem Channel.restarted_node (x : Channel) : x.restarted.node = x.node := by
  unfold Channel.restarted
  split <;> rfl

theorem Channel.restarted_of_assigned {x : Channel} (h : x.state ≠ .unassigned) : x.restarted.state = .warming ∧
    x.restarted.gustRing = [] ∧ x.restarted.sustRing = [] := by
  unfold Channel.restarted
  rw [if_neg h]
  exact ⟨rfl, rfl, rfl⟩

/-- Settles O57: a restart is carried out by `warmRestart`, at once or when the commit in flight has ended. -/
theorem warmRestartClearsThePicture : Obligations.WarmRestartClearsThePicture := by
  intro who s restarted
  have meets {u : State} (h : s.Restarted u) : restarted u := by
    obtain ⟨supForward, part, fldForward, runCount, supSeq⟩ := h.queues
    obtain ⟨supTx, fldTx⟩ := h.transmitters
    obtain ⟨held, notices⟩ := h.notices
    obtain ⟨forward, reverse, -⟩ := h.ceilings
    have emptied : u.notices.queue = [] ∧ u.notices.buffer = [] ∧ u.notices.flush = none ∧ u.notices.freeze = .flowing ∧
        u.notices.lost = 0 := by
      rw [notices]
      exact ⟨rfl, rfl, rfl, rfl, rfl⟩
    obtain ⟨queue, buffer, flush, freeze, lost⟩ := emptied
    refine ⟨supForward, part, fldForward, runCount, supSeq, h.origin, supTx, fldTx, queue, buffer, flush, freeze, lost, h.rim,
      h.grants, h.gates, h.conditions, fun c => ?_, h.level, h.served, h.records.drives, h.latch, forward, reverse,
      fun c => ⟨h.records.door c, h.records.occupancy c⟩, h.frame⟩
    rw [h.channels c]
    exact ⟨Channel.restarted_node _, Channel.restarted_of_assigned⟩
  have event {u : State} (did : s.tryDeferred = u) (running : s.phase = .running) :
      exec .deferredWarmRestart s = .next u.close :=
    (congrArg Host.Outcome.next (State.takeEvent_running running State.tryDeferred)).trans (by rw [did])
  refine ⟨fun takes busy => exec_replied rfl rfl takes (if_pos (State.inFlight_eq_true.2 busy)), fun takes free => ?_,
    fun running free deferred => ?_, fun running stays => event ?_ running⟩
  · have did : s.doWarmRestart = (s.warmRestart, Answer.bare .done) := if_neg (by simp [State.inFlight, free])
    exact ⟨_, exec_replied rfl rfl takes did, meets s.warmRestart_restarted, s.warmRestart_policy⟩
  · have did : s.tryDeferred = s.carryOutDeferred := if_neg (by simp [State.inFlight, free])
    exact ⟨_, event did running, meets (State.carryOutDeferred_restarted deferred), s.carryOutDeferred_policy⟩
  · unfold State.tryDeferred
    split
    · rfl
    · next free =>
      exact State.carryOutDeferred_of_none (stays.resolve_left (not_not.2 (State.inFlight_eq_false.1 (Bool.eq_false_iff.2 free))))

/-! ## The ends of a commit -/

theorem State.finishCommit_of_direct (h : s.policy.deferred = false) (e : CommitEnd) :
    s.finishCommit e = (s.withPolicy s.policy.endCommit).postCommit e := by
  rw [State.finishCommit, State.carryOutDeferred_of_none (s := s.withPolicy s.policy.endCommit) h]

/-- With a restart deferred, it is carried out before the notice. -/
theorem State.finishCommit_of_deferred (h : s.policy.deferred = true) (e : CommitEnd) : ∃ u, s.finishCommit e = u.postCommit e ∧
    u.policy = { s.policy.endCommit with deferred := false } ∧ s.Restarted u :=
  ⟨_, rfl, State.carryOutDeferred_policy _, (State.carryOutDeferred_restarted (s := s.withPolicy s.policy.endCommit) h).of_policy⟩

/-- A COMMIT notice of a state whose banks are those of `p`. -/
theorem State.postCommit_of_policy {p : PolicyStore} (active : u.policy.active = p.active) (staging : u.policy.staging = p.staging) :
    (∀ st, u.postCommit (.aborted st none) =
      u.post .commit false 3 (byte p.active.code) (byte st.code) 0 (byte p.staging.code)) ∧
    (∀ st before, u.postCommit (.aborted st (some before)) =
      u.post .commit false 3 (byte before.code) (byte st.code) 1 (byte p.staging.code)) ∧
    u.postCommit .timedOut = u.post .commit false 2 (byte p.active.code) 2 0 (byte p.staging.code) ∧
    (∀ c t i, u.postCommit (.rejected c t i) = u.post .commit false 1 (byte p.active.code) (byte c) (byte t) (byte i)) := by
  rw [← active, ← staging]
  exact ⟨fun _ => rfl, fun _ _ => rfl, rfl, fun _ _ _ => rfl⟩

theorem LoadBank.ofCode_eq_none {n : Nat} (one : n ≠ 1) (two : n ≠ 2) : LoadBank.ofCode n = none := by
  unfold LoadBank.ofCode
  split
  · exact absurd rfl one
  · exact absurd rfl two
  · rfl

theorem State.doCommitStaging_of_unlisted {bank : Byte} (free : s.policy.commit = .idle)
    (unlisted : LoadBank.ofCode bank.toNat = none) : s.doCommitStaging bank = s.refuseRequest .range := by
  unfold State.doCommitStaging
  rw [if_neg (by simp [State.inFlight, free]), unlisted]

theorem State.doCommitStaging_of_listed {bank : Byte} {x : LoadBank} (free : s.policy.commit = .idle)
    (listed : LoadBank.ofCode bank.toNat = some x) : s.doCommitStaging bank =
    if x ≠ s.policy.staging then s.refuseRequest .state
    else (s.withPolicy { s.policy with
      commit := .walking, commitBank := some x, timer := some commitMs, walk := s.policy.walk + 1, walkAge := 0 },
      { outcome := .accepted, data := [bank] }) := by
  unfold State.doCommitStaging
  rw [if_neg (by simp [State.inFlight, free]), listed]

/-- Settles O54: a commit starts in its four cases, and ends by `finishCommit`. -/
theorem commitStartsAndEnds : Obligations.CommitStartsAndEnds := by
  intro who bank s ended restarted
  have meets {u : State} (policy : u.policy = { ended with deferred := false }) (h : s.Restarted u) : restarted u :=
    ⟨policy, h.rim, h.grants, h.records.drives, h.records.occupancy⟩
  have direct := State.postCommit_of_policy (u := s.withPolicy s.policy.endCommit) (p := s.policy) rfl rfl
  have after {u : State} (policy : u.policy = { ended with deferred := false }) := State.postCommit_of_policy (u := u)
    (p := s.policy) (by rw [policy]) (by rw [policy])
  have event {u : State} (did : s.commitExpiry = u) (running : s.phase = .running) : exec .commitTimerExpiry s = .next u.close :=
    (congrArg Host.Outcome.next (State.takeEvent_running running State.commitExpiry)).trans (by rw [did])
  have expires (pending : s.policy.commit = .pending) (timer : s.policy.timer = some 0) :
      s.commitExpiry = s.finishCommit .timedOut := by
    unfold State.commitExpiry
    rw [timer]
    dsimp only
    rw [if_pos pending, State.advance_zero]
  refine ⟨fun takes => ⟨fun busy => exec_replied rfl rfl takes (if_pos (State.inFlight_eq_true.2 busy)), fun free one two => ?_,
    fun b free listed other => ?_, fun free listed => ?_, fun free => ?_, fun busy free => ?_, fun busy deferred => ?_⟩,
    fun running pending timer free => ?_, fun running pending timer deferred => ?_, fun running stays => event ?_ running⟩
  · exact exec_replied rfl rfl takes (State.doCommitStaging_of_unlisted free (LoadBank.ofCode_eq_none one two))
  · exact exec_replied rfl rfl takes ((State.doCommitStaging_of_listed free listed).trans (if_pos other))
  · exact exec_replied rfl rfl takes ((State.doCommitStaging_of_listed free listed).trans (if_neg (not_not.2 rfl)))
  · exact exec_replied rfl rfl takes (if_neg (by simp [State.inFlight, free]))
  · have did : s.doAbortCommit = (s.finishCommit (.aborted s.policy.commit none), Answer.bare .done) :=
      if_pos (State.inFlight_eq_true.2 busy)
    rw [State.finishCommit_of_direct free, direct.1] at did
    exact exec_replied rfl rfl takes did
  · have did : s.doAbortCommit = (s.finishCommit (.aborted s.policy.commit none), Answer.bare .done) :=
      if_pos (State.inFlight_eq_true.2 busy)
    obtain ⟨u, finished, policy, h⟩ := State.finishCommit_of_deferred deferred (.aborted s.policy.commit none)
    rw [finished, (after policy).1] at did
    exact ⟨u, meets policy h, exec_replied rfl rfl takes did⟩
  · obtain ⟨-, -, timedOut, -⟩ := direct
    exact event ((expires pending timer).trans ((State.finishCommit_of_direct free _).trans timedOut)) running
  · obtain ⟨u, finished, policy, h⟩ := State.finishCommit_of_deferred deferred .timedOut
    obtain ⟨-, -, timedOut, -⟩ := after policy
    exact ⟨u, meets policy h, event ((expires pending timer).trans (finished.trans timedOut)) running⟩
  · unfold State.commitExpiry
    split
    · rfl
    · next ms timer => exact if_neg (stays.resolve_left (by rw [timer]; nofun))

/-! ## The swap -/

theorem State.noGrants_eq_true (h : s.noGrants = true) : s.board.grants = { a := none, b := none } := by
  unfold State.noGrants at h
  generalize s.board.grants = grants at h
  obtain ⟨a, b⟩ := grants
  cases a <;> cases b <;> first | rfl | cases h

/-- What a swap leaves that makes bank `x` active. -/
structure State.Swapped (s : State) (x : LoadBank) (t : State) : Prop where
  policy     : t.policy = { s.policy with
    active := x.toBankNo, staging := x.other, commit := .idle, commitBank := none, timer := none, deferred := false }
  conditions : t.ConditionsAgree
  ceilings   : t.CeilingsAgree
  grants     : t.board.grants = s.board.grants
  drives     : t.governor.drives = s.governor.drives
  nodes      : ∀ c : ChannelIx, (t.wind.channels[c]).node = (s.loadBank x).nodeOf (.anemometer c)
  position   : s.policy.deferred = false → t.rim.known = s.rim.known ∧ t.rim.fix = s.rim.fix
  reset      : s.policy.deferred = true → t.rim = RimTracker.reset
  frame      : s.OnlyChanges t [.policy, .rim, .board, .wind, .governor, .sweep, .cabins, .path, .notices]

theorem State.takeBank_conditions (s : State) : s.takeBank.ConditionsAgree := State.recomputeBoarding_conditions _

theorem State.takeBank_ceilings (s : State) : s.takeBank.CeilingsAgree := State.recomputeBoarding_ceilings _

theorem State.takeBank_position (s : State) : s.takeBank.rim.known = s.rim.known ∧ s.takeBank.rim.fix = s.rim.fix := by
  have moved : s.rimBankChange.windBankChange.rim = s.rimBankChange.rim := (Move.windBankChange _).onlyChanges .rim (by decide)
  rw [State.takeBank, State.recomputeBoarding_rim, moved, State.rimBankChange, State.withRim_rim]
  exact ⟨rfl, rfl⟩

theorem Channel.reassigned_node (x : Channel) (n : Option Byte) : (x.reassigned n).node = n := by
  cases n with
  | none => rfl
  | some m =>
      unfold Channel.reassigned
      dsimp only
      split
      · assumption
      · rfl

theorem State.takeBank_node (s : State) (c : ChannelIx) :
    (s.takeBank.wind.channels[c]).node = s.active.nodeOf (.anemometer c) := by
  rw [State.takeBank_channels, Fin.getElem_fin, Vector.getElem_ofFn, Channel.reassigned_node]

theorem State.active_withPolicy_swapTo (s : State) (x : LoadBank) : (s.withPolicy (s.policy.swapTo x)).active = s.loadBank x := by
  cases x <;> rfl

/-- What rests on the inputs of the ceilings, the banks and the position is not touched by a notice. -/
theorem State.Swapped.postCommit {x : LoadBank} (h : s.Swapped x t) (e : CommitEnd) : s.Swapped x (t.postCommit e) := by
  have told := (Move.postCommit t e).onlyChanges
  have inputs : t.SameInputs (t.postCommit e) := .of_frame (told.mono (by decide))
  have wind : (t.postCommit e).wind = t.wind := told .wind (by decide)
  have governor : (t.postCommit e).governor = t.governor := told .governor (by decide)
  have rim : (t.postCommit e).rim = t.rim := told .rim (by decide)
  exact ⟨(t.postCommit_policy e).trans h.policy, inputs.conditionsAgree h.conditions, inputs.ceilingsAgree h.ceilings,
    inputs.grants.trans h.grants, (congrArg Governor.drives governor).trans h.drives, by rw [wind]; exact h.nodes,
    by rw [rim]; exact h.position, by rw [rim]; exact h.reset, h.frame.trans (told.mono (by decide))⟩

theorem State.Swapped.close {x : LoadBank} (h : s.Swapped x t) : s.Swapped x t.close :=
  ⟨t.close_policy.trans h.policy, t.close_inputs.conditionsAgree h.conditions, t.close_inputs.ceilingsAgree h.ceilings,
    t.close_inputs.grants.trans h.grants, (congrArg Governor.drives t.close_governor).trans h.drives,
    by rw [t.close_wind]; exact h.nodes, by rw [t.close_rim]; exact h.position, by rw [t.close_rim]; exact h.reset,
    h.frame.trans (t.close_frame.mono (by decide))⟩

/-- The swap of a state whose commit alone differs is a swap of that state. -/
theorem State.Swapped.of_commit {x : LoadBank} {c : CommitState} (h : (s.withPolicy { s.policy with commit := c }).Swapped x t) :
    s.Swapped x t where
  policy := h.policy
  conditions := h.conditions
  ceilings := h.ceilings
  grants := h.grants
  drives := h.drives
  nodes := by cases x <;> exact h.nodes
  position := h.position
  reset := h.reset
  frame := ((Move.withPolicy (q := false) (bs := [.policy]) s _ (by decide) nofun).onlyChanges.mono (by decide)).trans h.frame

/-- The blocks take the bank of a swap, with no restart deferred. -/
theorem State.swapped_of_takeBank {x : LoadBank} {v : State} (policy : v.policy = s.policy.swapTo x)
    (frame : s.OnlyChanges v [.policy, .notices]) (direct : s.policy.deferred = false) : s.Swapped x v.takeBank := by
  have board : v.board = s.board := frame .board (by decide)
  have rim : v.rim = s.rim := frame .rim (by decide)
  have governor : v.governor = s.governor := frame .governor (by decide)
  have active : v.active = s.loadBank x :=
    (State.active_congr (s := s.withPolicy (s.policy.swapTo x)) policy).trans (s.active_withPolicy_swapTo x)
  refine ⟨?_, v.takeBank_conditions, v.takeBank_ceilings, ?_, ?_, fun c => ?_, fun _ => ?_, fun deferred => ?_,
    (frame.mono (by decide)).trans ((Move.takeBank v).onlyChanges.mono (by decide))⟩
  · rw [v.takeBank_policy, policy, ← direct]
    rfl
  · rw [v.takeBank_grants, board]
  · rw [(State.KeepsRecords.takeBank v).drives, governor]
  · rw [v.takeBank_node, active]
  · rw [← rim]
    exact v.takeBank_position
  · rw [direct] at deferred
    cases deferred

/-- With a restart deferred, the blocks take the bank and the restart is carried out. -/
theorem State.swapped_of_restart {x : LoadBank} (deferred : s.policy.deferred = true) (free : s.noGrants = true) :
    s.Swapped x (s.withPolicy (s.policy.swapTo x)).takeBank.carryOutDeferred := by
  have policy : (s.withPolicy (s.policy.swapTo x)).takeBank.policy = s.policy.swapTo x := State.takeBank_policy _
  have node := (s.withPolicy (s.policy.swapTo x)).takeBank_node
  have drives : (s.withPolicy (s.policy.swapTo x)).takeBank.governor.drives = s.governor.drives :=
    (State.KeepsRecords.takeBank _).drives
  have frame : s.OnlyChanges (s.withPolicy (s.policy.swapTo x)).takeBank commitBlocks :=
    ((Move.withPolicy (q := false) (bs := [.policy]) s _ (by decide) nofun).onlyChanges.mono (by decide)).trans
      (Move.takeBank _).onlyChanges
  rw [s.active_withPolicy_swapTo] at node
  generalize (s.withPolicy (s.policy.swapTo x)).takeBank = v at *
  have h := v.carryOutDeferred_restarted (by rw [policy]; exact deferred)
  refine ⟨?_, h.conditions, h.ceilings, ?_, h.records.drives.trans drives, fun c => ?_, fun direct => ?_, fun _ => h.rim,
    (frame.mono (by decide)).trans h.frame⟩
  · rw [v.carryOutDeferred_policy, policy]
    rfl
  · rw [h.grants, State.noGrants_eq_true free]
  · rw [h.channels c, Channel.restarted_node, node]
  · rw [deferred] at direct
    cases direct

theorem State.swapBanks_swapped {x : LoadBank} (bank : s.policy.commitBank = some x) (free : s.noGrants = true) :
    s.Swapped x s.swapBanks := by
  unfold State.swapBanks
  rw [bank]
  dsimp only
  cases deferred : s.policy.deferred with
  | true =>
      rw [if_pos rfl]
      exact (State.swapped_of_restart deferred free).postCommit _
  | false =>
      rw [if_neg nofun]
      exact State.swapped_of_takeBank (State.postCommit_policy _ _)
        (((Move.withPolicy (q := false) (bs := [.policy]) s _ (by decide) nofun).onlyChanges.mono (by decide)).trans
          ((Move.postCommit _ _).onlyChanges.mono (by decide))) deferred

theorem State.trySwap_of_safe (pending : s.policy.commit = .pending) (free : s.noGrants = true) : s.trySwap = s.swapBanks :=
  if_pos (by simp [State.atSafePoint, pending, free])

theorem State.trySwap_of_unsafe (h : s.policy.commit ≠ .pending ∨ s.noGrants = false) : s.trySwap = s := by
  refine if_neg fun safe => ?_
  obtain ⟨pending, free⟩ := Bool.and_eq_true_iff.1 safe
  rcases h with other | held
  · exact other (of_decide_eq_true pending)
  · rw [held] at free
    cases free

theorem State.commitBankTables_of_bank {x : LoadBank} (bank : s.policy.commitBank = some x) : s.commitBankTables = s.loadBank x := by
  unfold State.commitBankTables
  rw [bank]
  cases x <;> rfl

theorem State.walkCompletion_of_failed {f : WalkFault} (walking : s.policy.commit = .walking)
    (failed : commitWalk s.commitBankTables s.envelope = some f) :
    s.walkCompletion s.policy.walk = s.finishCommit (.rejected f.check f.table f.index) := by
  unfold State.walkCompletion
  rw [if_pos ⟨walking, rfl⟩, failed]

theorem State.walkCompletion_of_passed (walking : s.policy.commit = .walking)
    (passed : commitWalk s.commitBankTables s.envelope = none) :
    s.walkCompletion s.policy.walk = (s.withPolicy { s.policy with commit := .pending }).trySwap := by
  unfold State.walkCompletion
  rw [if_pos ⟨walking, rfl⟩, passed]

/-- Settles O55: the walk's three outcomes, and the swap wherever it comes from. -/
theorem commitBankIsSwappedIn : Obligations.CommitBankIsSwappedIn := by
  intro s running swapped
  have meets {x : LoadBank} {t : State} (h : s.Swapped x t) : swapped x t := by
    obtain ⟨forward, reverse, -⟩ := h.ceilings
    exact ⟨h.policy, h.conditions, forward, reverse, h.grants, h.drives, h.nodes, h.position, h.reset, h.frame⟩
  have walked {w : Nat} {u : State} (did : s.walkCompletion w = u) : exec (.commitWalkCompletion w) s = .next u.close :=
    (congrArg Host.Outcome.next (State.takeEvent_running running (·.walkCompletion w))).trans (by rw [did])
  have swap {u : State} (did : s.trySwap = u) : exec .swap s = .next u.close :=
    (congrArg Host.Outcome.next (State.takeEvent_running running State.trySwap)).trans (by rw [did])
  refine ⟨fun w other => walked (if_neg ?_), fun x bank walking => ⟨fun f failed => ⟨fun direct => walked ?_,
    fun deferred => ?_⟩, fun passed held => walked ?_, fun passed free => ?_⟩, fun x bank pending free => ?_,
    fun away => swap (State.trySwap_of_unsafe away)⟩
  · rintro ⟨walking, same⟩
    exact other.elim (· walking) (· same)
  · rw [← State.commitBankTables_of_bank bank] at failed
    obtain ⟨-, -, -, rejected⟩ := State.postCommit_of_policy (u := s.withPolicy s.policy.endCommit) (p := s.policy) rfl rfl
    exact ((State.walkCompletion_of_failed walking failed).trans (State.finishCommit_of_direct direct _)).trans (rejected _ _ _)
  · rw [← State.commitBankTables_of_bank bank] at failed
    obtain ⟨u, finished, policy, h⟩ := State.finishCommit_of_deferred deferred (.rejected f.check f.table f.index)
    obtain ⟨-, -, -, rejected⟩ := State.postCommit_of_policy (u := u) (p := s.policy) (by rw [policy]; rfl) (by rw [policy]; rfl)
    exact ⟨u, policy, h.rim, h.grants, h.records.drives,
      walked (((State.walkCompletion_of_failed walking failed).trans finished).trans (rejected _ _ _))⟩
  · rw [← State.commitBankTables_of_bank bank] at passed
    exact (State.walkCompletion_of_passed walking passed).trans (State.trySwap_of_unsafe (.inr held))
  · rw [← State.commitBankTables_of_bank bank] at passed
    refine ⟨_, walked ((State.walkCompletion_of_passed walking passed).trans (State.trySwap_of_safe rfl free)), meets ?_⟩
    exact (State.swapBanks_swapped (s := s.withPolicy { s.policy with commit := .pending }) bank free).of_commit.close
  · exact ⟨_, swap (State.trySwap_of_safe pending free), meets (State.swapBanks_swapped bank free).close⟩

/-! ## The revert -/

theorem State.active_of_floor (floor : s.policy.active = .floor) : s.active = floorBank := by
  unfold State.active
  rw [floor]
  rfl

/-- In bank 0 every channel is UNASSIGNED once the blocks have taken it. -/
theorem State.takeBank_channel_of_floor (floor : s.policy.active = .floor) (c : ChannelIx) :
    s.takeBank.wind.channels[c] = Channel.unassigned := by
  rw [State.takeBank_channels, Fin.getElem_fin, Vector.getElem_ofFn, State.active_of_floor floor]
  rfl

theorem floorBank_ceiling (l : Level) : floorBank.ceiling l = 0 := by cases l <;> rfl

theorem State.forwardNow_of_floor (floor : s.policy.active = .floor) : s.forwardNow = 0 := by
  unfold State.forwardNow
  rw [State.active_of_floor floor, floorBank_ceiling, Nat.min_zero, Nat.zero_min]

theorem State.reverseNow_of_stopped (h : s.forwardNow = 0) : s.reverseNow = 0 := by
  unfold State.reverseNow
  rw [h, Nat.min_zero, ite_self]

theorem Level.eq_park {l : Level} (h : Level.park.code ≤ l.code) : l = .park :=
  Level.code_injective (le_antisymm l.code_le h)

/-- Without a LIVE channel bank 0's blind level holds, which is PARK. -/
theorem State.LevelLaw.park_of_floor (law : s.LevelLaw) (floor : s.policy.active = .floor)
    (channels : ∀ c : ChannelIx, s.wind.channels[c] = Channel.unassigned) : s.wind.level = .park := by
  have none_live : s.liveChannels = [] := by
    unfold State.liveChannels
    exact List.filter_eq_nil_iff.2 fun c _ => by rw [channels c]; decide
  have live : s.wind.live = 0 := by rw [law.live, none_live]; rfl
  have above := law.blind (State.belowQuorum_eq_true.2 (by rw [State.active_of_floor floor, live]; decide))
  rw [State.active_of_floor floor] at above
  exact Level.eq_park above

/-- What a Revert to Floor from a loaded bank leaves. -/
structure State.Floored (s u : State) : Prop where
  active     : u.policy.active = .floor
  staging    : u.policy.staging = s.policy.staging
  commit     : u.policy.commit = .idle
  bank1      : u.policy.bank1 = s.policy.bank1
  bank2      : u.policy.bank2 = s.policy.bank2
  level      : u.wind.level = .park
  channels   : ∀ c : ChannelIx, u.wind.channels[c] = Channel.unassigned
  ceilings   : u.CeilingsAgree
  conditions : u.ConditionsAgree
  frame      : s.OnlyChanges u [.policy, .rim, .board, .wind, .governor, .sweep, .cabins, .path, .notices]

/-- The blocks take bank 0. -/
theorem State.floored_of_takeBank {v : State} (active : v.policy.active = .floor) (staging : v.policy.staging = s.policy.staging)
    (commit : v.policy.commit = .idle) (bank1 : v.policy.bank1 = s.policy.bank1) (bank2 : v.policy.bank2 = s.policy.bank2)
    (frame : s.OnlyChanges v [.policy, .notices]) : s.Floored v.takeBank where
  active := by rw [v.takeBank_policy, active]
  staging := by rw [v.takeBank_policy, staging]
  commit := by rw [v.takeBank_policy, commit]
  bank1 := by rw [v.takeBank_policy, bank1]
  bank2 := by rw [v.takeBank_policy, bank2]
  level := v.takeBank_levelLaw.park_of_floor (by rw [v.takeBank_policy, active]) (State.takeBank_channel_of_floor active)
  channels := State.takeBank_channel_of_floor active
  ceilings := v.takeBank_ceilings
  conditions := v.takeBank_conditions
  frame := (frame.mono (by decide)).trans ((Move.takeBank v).onlyChanges.mono (by decide))

/-- A restart keeps bank 0's picture. -/
theorem State.Floored.restart (h : s.Floored t) (deferred : t.policy.deferred = true) : s.Floored t.carryOutDeferred := by
  have restarted := State.carryOutDeferred_restarted deferred
  have level : t.carryOutDeferred.wind.level = .park := Level.eq_park (by rw [← h.level]; exact restarted.level)
  refine ⟨?_, ?_, ?_, ?_, ?_, level, fun c => ?_, restarted.ceilings, restarted.conditions, h.frame.trans restarted.frame⟩
  case refine_6 => rw [restarted.channels c, h.channels c]; rfl
  all_goals rw [t.carryOutDeferred_policy]
  exacts [h.active, h.staging, h.commit, h.bank1, h.bank2]

theorem State.Floored.postCommit (h : s.Floored t) (e : CommitEnd) : s.Floored (t.postCommit e) := by
  have told := (Move.postCommit t e).onlyChanges
  have inputs : t.SameInputs (t.postCommit e) := .of_frame (told.mono (by decide))
  have wind : (t.postCommit e).wind = t.wind := told .wind (by decide)
  have policy := t.postCommit_policy e
  refine ⟨?_, ?_, ?_, ?_, ?_, by rw [wind]; exact h.level, by rw [wind]; exact h.channels, inputs.ceilingsAgree h.ceilings,
    inputs.conditionsAgree h.conditions, h.frame.trans (told.mono (by decide))⟩
  all_goals rw [policy]
  exacts [h.active, h.staging, h.commit, h.bank1, h.bank2]

theorem State.revert_of_idle (free : s.policy.commit = .idle) : s.revert = s.toFloor := if_neg (by simp [State.inFlight, free])

theorem State.revert_of_deferred (busy : s.policy.commit ≠ .idle) (deferred : s.policy.deferred = true) : s.revert =
    (s.withPolicy s.policy.endCommit).toFloor.carryOutDeferred.postCommit (.aborted s.policy.commit (some s.policy.active)) :=
  (if_pos (State.inFlight_eq_true.2 busy)).trans (if_pos deferred)

theorem State.revert_of_direct (busy : s.policy.commit ≠ .idle) (direct : s.policy.deferred = false) : s.revert =
    ((s.withPolicy s.policy.endCommit).postCommit (.aborted s.policy.commit (some s.policy.active))).toFloor :=
  (if_pos (State.inFlight_eq_true.2 busy)).trans (if_neg (by rw [direct]; nofun))

theorem State.withPolicy_frame (s : State) (p : PolicyStore) : s.OnlyChanges (s.withPolicy p) [.policy] :=
  (Move.withPolicy (q := false) (bs := [.policy]) s p (by decide) nofun).onlyChanges

/-- A revert from a loaded bank, by the commit and the deferred restart it finds. -/
theorem State.revert_floored (loaded : s.policy.active ≠ .floor) : s.Floored s.revert ∧
    (s.policy.commit = .idle ∨ s.policy.deferred = false → s.revert.board.grants = s.board.grants) := by
  have ended : (s.withPolicy s.policy.endCommit).policy.active ≠ .floor := loaded
  by_cases free : s.policy.commit = .idle
  · rw [State.revert_of_idle free, State.toFloor_of_loaded loaded]
    exact ⟨State.floored_of_takeBank rfl rfl free rfl rfl ((s.withPolicy_frame _).mono (by decide)),
      fun _ => State.takeBank_grants _⟩
  · cases deferred : s.policy.deferred with
    | true =>
        rw [State.revert_of_deferred free deferred, State.toFloor_of_loaded ended]
        have floored : s.Floored ((s.withPolicy s.policy.endCommit).withPolicy
            { (s.withPolicy s.policy.endCommit).policy with active := .floor }).takeBank :=
          State.floored_of_takeBank rfl rfl rfl rfl rfl (((s.withPolicy_frame _).trans (State.withPolicy_frame _ _)).mono (by decide))
        refine ⟨(floored.restart ?_).postCommit _, fun other => other.elim (absurd · free) nofun⟩
        rw [State.takeBank_policy]
        exact deferred
    | false =>
        have told := (Move.postCommit (s.withPolicy s.policy.endCommit)
          (.aborted s.policy.commit (some s.policy.active))).onlyChanges
        have policy := (s.withPolicy s.policy.endCommit).postCommit_policy (.aborted s.policy.commit (some s.policy.active))
        rw [State.revert_of_direct free deferred]
        generalize (s.withPolicy s.policy.endCommit).postCommit (.aborted s.policy.commit (some s.policy.active)) = v at *
        rw [State.toFloor_of_loaded (by rw [policy]; exact ended)]
        have board : v.board = s.board := told .board (by decide)
        refine ⟨State.floored_of_takeBank rfl ?_ ?_ ?_ ?_ ((((s.withPolicy_frame _).mono (by decide)).trans
          (told.mono (by decide))).trans ((v.withPolicy_frame _).mono (by decide))), fun _ => ?_⟩
        · rw [State.withPolicy_policy, policy]; rfl
        · rw [State.withPolicy_policy, policy]; rfl
        · rw [State.withPolicy_policy, policy]; rfl
        · rw [State.withPolicy_policy, policy]; rfl
        · rw [State.takeBank_grants, State.withPolicy_board, board]

theorem State.toFloor_of_floor (h : s.policy.active = .floor) : s.toFloor = s := if_pos h

/-- Settles O56: from a loaded bank the blocks take bank 0; in bank 0 only a commit in flight is ended. -/
theorem revertBringsTheFloor : Obligations.RevertBringsTheFloor := by
  intro who s takes
  have request {u : State} (reverted : s.revert = u) :
      exec (.revertToFloor who) s = .next (u.replied who .done [0]).close := by
    have did : s.doRevertToFloor = (u, { outcome := .done, data := [0] }) := by
      have floor := s.revert_floor
      rw [State.doRevertToFloor, floor, reverted]
      rfl
    exact exec_replied rfl rfl takes did
  refine ⟨fun loaded => ?_, fun floor free => ?_, fun floor busy => ?_⟩
  · obtain ⟨h, grants⟩ := State.revert_floored loaded
    obtain ⟨forward, reverse, -⟩ := h.ceilings
    have stopped := State.forwardNow_of_floor h.active
    exact ⟨_, request rfl, h.active, h.staging, h.commit, h.bank1, h.bank2, h.level, h.channels, forward.trans stopped,
      reverse.trans (State.reverseNow_of_stopped stopped), h.conditions, grants, h.frame⟩
  · exact request ((State.revert_of_idle free).trans (State.toFloor_of_floor floor))
  · cases deferred : s.policy.deferred with
    | true =>
        have restarted := (s.withPolicy s.policy.endCommit).carryOutDeferred_restarted deferred
        have policy := (s.withPolicy s.policy.endCommit).carryOutDeferred_policy
        have reverted := State.revert_of_deferred busy deferred
        rw [State.toFloor_of_floor (s := s.withPolicy s.policy.endCommit) floor] at reverted
        generalize (s.withPolicy s.policy.endCommit).carryOutDeferred = u at *
        obtain ⟨-, aborted, -, -⟩ := State.postCommit_of_policy (u := u) (p := s.policy) (by rw [policy]; rfl) (by rw [policy]; rfl)
        rw [aborted, floor] at reverted
        have h := restarted.of_policy
        exact ⟨u, request reverted, nofun, fun _ => ⟨policy, h.rim, h.grants, h.records.drives, h.records.occupancy⟩⟩
    | false =>
        have reverted := State.revert_of_direct busy deferred
        obtain ⟨-, aborted, -, -⟩ := State.postCommit_of_policy (u := s.withPolicy s.policy.endCommit) (p := s.policy) rfl rfl
        rw [State.toFloor_of_floor (by rw [State.postCommit_policy]; exact floor), aborted, floor] at reverted
        exact ⟨_, request reverted, fun _ => rfl, nofun⟩

end Sys2Proof.Machine
end

section
/-! PROOFS. The tables in bytes: what Read Table fits (R161), how Write Staging is judged (R162), and that a written entry reads
back (R160). -/

namespace Sys2Proof.Machine

variable {s t u : State}

/-! ## The entries that fit -/

/-- The greatest run of whole entries that fits in the room, at most as many as are asked. -/
theorem fitEntries_spec (entry : Nat → List Byte) {size i : Nat} (start : i < size) (room count : Nat) : ∃ n,
    fitEntries entry size i room count = (List.range n).map (fun j => entry ((i + j) % size)) ∧ n ≤ count ∧
      ((List.range n).flatMap fun j => entry ((i + j) % size)).length ≤ room ∧
      (n < count → room < ((List.range (n + 1)).flatMap fun j => entry ((i + j) % size)).length) := by
  induction count generalizing i room with
  | zero => exact ⟨0, rfl, Nat.le_refl 0, Nat.zero_le room, nofun⟩
  | succ count ih =>
      have wraps (n : Nat) : (List.range (n + 1)).map (fun j => entry ((i + j) % size)) =
          entry i :: (List.range n).map (fun j => entry (((i + 1) % size + j) % size)) := by
        rw [List.range_succ_eq_map, List.map_cons, List.map_map, Nat.add_zero, Nat.mod_eq_of_lt start]
        refine congrArg _ (List.map_congr_left fun j _ => ?_)
        rw [Nat.mod_add_mod, Function.comp_apply, Nat.succ_eq_add_one]
        congr 2
        omega
      have lengths (n : Nat) : ((List.range (n + 1)).flatMap fun j => entry ((i + j) % size)).length =
          (entry i).length + ((List.range n).flatMap fun j => entry (((i + 1) % size + j) % size)).length := by
        rw [List.flatMap_def, List.flatMap_def, wraps, List.flatten_cons, List.length_append]
      unfold fitEntries
      dsimp only
      split
      · next fits =>
        obtain ⟨n, run, most, fit, full⟩ := ih (Nat.mod_lt (i + 1) (Nat.zero_lt_of_lt start)) (room - (entry i).length)
        refine ⟨n + 1, by rw [run, wraps], Nat.succ_le_succ most, ?_, fun more => ?_⟩
        · rw [lengths]
          omega
        · have := full (Nat.lt_of_succ_lt_succ more)
          rw [lengths]
          omega
      · next long =>
        refine ⟨0, rfl, Nat.zero_le _, Nat.zero_le room, fun _ => ?_⟩
        rw [lengths]
        exact Nat.lt_of_lt_of_le (Nat.lt_of_not_le long) (Nat.le_add_right _ _)

theorem fitEntries_cons {entry : Nat → List Byte} {size i room count : Nat} (fits : (entry i).length ≤ room) :
    fitEntries entry size i room (count + 1) = entry i :: fitEntries entry size ((i + 1) % size) (room - (entry i).length) count :=
  if_pos fits

/-! ## The lengths of entries -/

theorem optional_length_le {α : Type} {f : α → List Byte} {n : Nat} (h : ∀ x, (f x).length ≤ n) (o : Option α) :
    (optional f o).length ≤ n + 1 := by
  cases o with
  | none => exact Nat.le_add_left 1 n
  | some x => exact Nat.succ_le_succ (h x)

theorem roleBytes_length (o : Option RoleEntry) : (roleBytes o).length = 3 := by cases o <;> rfl
theorem mapBytes_length (o : Option MapEntry) : (mapBytes o).length = 8 := by cases o <;> rfl
theorem berthBytes_length (o : Option BerthEntry) : (berthBytes o).length = 12 := by cases o <;> rfl
theorem windBytes_length (o : Option WindEntry) : (windBytes o).length = 11 := by cases o <;> rfl
theorem floorsBytes_length (o : Option FloorsRecord) : (floorsBytes o).length = 3 := by cases o <;> rfl
theorem limitBytes_length (o : Option LimitEntry) : (limitBytes o).length = 4 := by cases o <;> rfl
theorem numberBytes_length (o : Option Nat) : (numberBytes o).length = 2 := by cases o <;> rfl
theorem governorBytes_length (o : Option GovernorRecord) : (governorBytes o).length = 12 := by cases o <;> rfl
theorem flushBytes_length (o : Option Nat) : (flushBytes o).length = 3 := by cases o <;> rfl

/-- An entry of a bank table takes at most 12 bytes behind its index byte. -/
theorem Bank.entryBytes_length (k : Bank) (t : Table) (i : Nat) : (k.entryBytes t i).length ≤ 12 := by
  cases t with
  | nodeRoles => exact (roleBytes_length _).le.trans (by decide)
  | treatmentMap =>
      unfold Bank.entryBytes
      dsimp only
      split_ifs
      · exact (mapBytes_length _).le.trans (by decide)
      · exact Nat.le_add_left 1 11
      · exact Nat.le_add_left 1 11
  | berths =>
      unfold Bank.entryBytes
      dsimp only
      split_ifs <;> exact (berthBytes_length _).le
  | windLevels => exact (windBytes_length _).le.trans (by decide)
  | windFloors => exact (floorsBytes_length _).le.trans (by decide)
  | ceilingsAndLimits => exact (limitBytes_length _).le.trans (by decide)
  | beaconPatterns => exact (numberBytes_length _).le.trans (by decide)
  | governor => exact (governorBytes_length _).le
  | sweep => exact (numberBytes_length _).le.trans (by decide)
  | noticeParams => exact (flushBytes_length _).le.trans (by decide)
  | envelope | cabinRegister | grants | windChannels | drives | sweepList => exact Nat.zero_le _

theorem Envelope.entryBytes_length (e : Envelope) : e.entryBytes.length ≤ 19 := by
  have one (f : Nat → List Byte) (h : ∀ n, (f n).length ≤ 1) (o : Option Nat) := optional_length_le h o
  have node (o : Option Byte) := optional_length_le (f := fun n => [n]) (n := 1) (fun _ => Nat.le_refl 1) o
  have two (o : Option Nat) := optional_length_le (f := be2) (n := 2) (fun n => (be2_length n).le) o
  have number (o : Option Nat) := optional_length_le (f := fun n => [byte n]) (n := 1) (fun _ => Nat.le_refl 1) o
  have cabins := number e.cabins
  have capacity := number e.capacity
  have forward := two e.maxForward
  have reverse := number e.maxReverse
  have berths := number e.berths
  have own := node e.ownNode
  have supervisor := node e.supNode
  have gust := two e.gustCap
  simp only [Envelope.entryBytes, List.length_append, List.length_singleton]
  omega

theorem State.cabinBytes_length (s : State) (c : Nat) : (s.cabinBytes c).length ≤ 15 := by
  have grant := optional_length_le (f := fun g => [byte (Prod.fst g : Berth).code]) (n := 1) (fun _ => Nat.le_refl 1) (s.grantOf c)
  have exit := optional_length_le (f := be3) (n := 3) (fun _ => Nat.le_refl 3) (s.cabin c).lastExit
  unfold State.cabinBytes
  split
  · simp only [List.length_append, List.length_cons, List.length_nil]
    omega
  · exact Nat.le_add_left 2 13

theorem State.grantBytes_length (s : State) (berth : Berth) : (s.grantBytes berth).length ≤ 10 := by
  have grant := optional_length_le (f := fun g : Grant => [byte g.cabin, byte g.kind.code, byte g.state.code] ++ be3 g.since)
    (n := 6) (fun _ => Nat.le_refl 6) (s.board.grants.get berth)
  simp only [State.grantBytes, List.length_append, List.length_cons, List.length_nil]
  omega

theorem State.channelBytes_length (s : State) (c : ChannelIx) : (s.channelBytes c).length ≤ 13 := by
  have node := optional_length_le (f := fun n : Byte => [n]) (n := 1) (fun _ => Nat.le_refl 1) (s.wind.channels[c]).node
  simp only [State.channelBytes, List.length_append, List.length_cons, List.length_nil, be2_length]
  omega

theorem State.driveBytes_length (s : State) (d : DriveIx) : (s.driveBytes d).length ≤ 13 := by
  have node := optional_length_le (f := fun n : Byte => [n]) (n := 1) (fun _ => Nat.le_refl 1) (s.active.nodeOf (.drive d))
  have age := optional_length_le (f := fun t => be2 (min (s.clock.now - t) 65535)) (n := 2) (fun _ => Nat.le_refl 2)
    (s.drive d).screened
  have speed (x : Int) : (sbe2 x).length = 2 := rfl
  have credit (n : Nat) : (be3 n).length = 3 := rfl
  simp only [State.driveBytes, List.length_append, List.length_cons, List.length_nil, speed, credit]
  omega

theorem State.placeBytes_length (s : State) (i : Nat) : (s.placeBytes i).length ≤ 7 := by
  unfold State.placeBytes
  cases s.unloadList[i]? with
  | none => exact Nat.le_add_left 2 5
  | some c => exact Nat.le_refl 7

/-- Every entry fits whole in a reply. -/
theorem State.readEntry_length (s : State) (k : Bank) (t : Table) (i : Nat) : (s.readEntry k t i).length ≤ 42 := by
  have banked : (byte i :: k.entryBytes t i).length ≤ 42 :=
    (Nat.succ_le_succ (k.entryBytes_length t i)).trans (by decide)
  cases t with
  | envelope => exact (Nat.succ_le_succ s.envelope.entryBytes_length).trans (by decide)
  | cabinRegister => exact (s.cabinBytes_length _).trans (by decide)
  | grants => exact (s.grantBytes_length _).trans (by decide)
  | windChannels =>
      unfold State.readEntry
      dsimp only
      split
      · exact (s.channelBytes_length _).trans (by decide)
      · exact Nat.zero_le _
  | drives =>
      unfold State.readEntry
      dsimp only
      split
      · exact (s.driveBytes_length _).trans (by decide)
      · exact Nat.zero_le _
  | sweepList => exact (s.placeBytes_length i).trans (by decide)
  | nodeRoles | treatmentMap | berths | windLevels | windFloors | ceilingsAndLimits | beaconPatterns | governor | sweep
  | noticeParams => exact banked

/-! ## Read Table -/

/-- A table outside the banks reads the same whatever bank is named. -/
theorem State.readEntry_of_unbanked (s : State) {t : Table} (h : t.banked = false) (k k' : Bank) :
    s.readEntry k t = s.readEntry k' t := by
  funext i
  cases t <;> first | rfl | cases h

theorem State.doReadTable_of_unlisted {table bank first count : Byte} (h : Table.ofIdent table.toNat = none) :
    s.doReadTable table bank first count = s.refuseRequest .range := by
  unfold State.doReadTable
  rw [h]

/-- The bank that is read: the one named for a bank table, and any for another. -/
def State.readBank (s : State) (t : Table) (bank : Byte) : Option BankNo :=
  if t.banked then BankNo.ofCode bank.toNat else some s.policy.active

theorem State.doReadTable_of_no_bank {table bank first count : Byte} {t : Table} (h : Table.ofIdent table.toNat = some t)
    (bad : s.readBank t bank = none) : s.doReadTable table bank first count = s.refuseRequest .range := by
  unfold State.doReadTable
  rw [h]
  dsimp only
  unfold State.readBank at bad
  rw [bad]

theorem State.doReadTable_of_bank {table bank first count : Byte} {t : Table} {k : BankNo} (h : Table.ofIdent table.toNat = some t)
    (named : s.readBank t bank = some k) : s.doReadTable table bank first count =
      if t.entries ≤ first.toNat ∨ count.toNat < 1 ∨ 16 < count.toNat then s.refuseRequest .range
      else (s, { outcome := .done, data := s.tableData t (s.bank k) bank first.toNat count.toNat }) := by
  unfold State.doReadTable
  rw [h]
  dsimp only
  unfold State.readBank at named
  rw [named]

theorem BankNo.ofCode_of_gt {n : Nat} (h : 2 < n) : BankNo.ofCode n = none := by
  unfold BankNo.ofCode
  split <;> first | omega | rfl

/-- The reply's data are the entries that fit, with their number. -/
theorem State.tableData_spec (s : State) (k : Bank) {t : Table} {bank : Byte} {first count : Nat} (start : first < t.entries)
    (asked : 1 ≤ count) : ∃ n, 1 ≤ n ∧ n ≤ count ∧
      s.tableData t k bank first count = [byte t.ident, bank, byte n] ++
        (List.range n).flatMap (fun j => s.readEntry k t ((first + j) % t.entries)) ∧
      ((List.range n).flatMap fun j => s.readEntry k t ((first + j) % t.entries)).length ≤ 42 ∧
      (n < count → 42 < ((List.range (n + 1)).flatMap fun j => s.readEntry k t ((first + j) % t.entries)).length) := by
  obtain ⟨n, run, most, fit, full⟩ := fitEntries_spec (s.readEntry k t) start entryRoom count
  refine ⟨n, Nat.pos_of_ne_zero fun nothing => ?_, most, ?_, fit, full⟩
  · subst nothing
    obtain ⟨more, rfl⟩ := Nat.exists_eq_add_of_le' asked
    rw [fitEntries_cons (room := entryRoom) (s.readEntry_length k t first)] at run
    cases run
  · unfold State.tableData
    dsimp only
    rw [run, List.length_map, List.length_range, List.flatMap_def]

/-- Settles O51: a table that can be read answers the entries that fit, and each refusal is one of the tests. -/
theorem readTableFitsWholeEntries : Obligations.ReadTableFitsWholeEntries := by
  intro who table bank first count s takes
  refine ⟨fun t k listed named start low high => ?_, fun refused => exec_replied rfl rfl takes ?_⟩
  · obtain ⟨x, read, same⟩ : ∃ x, s.readBank t bank = some x ∧ s.readEntry (s.bank x) t = s.readEntry (s.bank k) t := by
      unfold State.readBank
      cases banked : t.banked with
      | true => exact ⟨k, named banked, rfl⟩
      | false => exact ⟨s.policy.active, rfl, s.readEntry_of_unbanked banked _ _⟩
    obtain ⟨n, one, most, data, fit, full⟩ := s.tableData_spec (s.bank x) (bank := bank) start low
    have did := (State.doReadTable_of_bank (first := first) (count := count) listed read).trans (if_neg (by omega))
    rw [data, same] at did
    rw [same] at fit full
    exact ⟨n, one, most, exec_replied rfl rfl takes did, fit, full⟩
  · rcases refused with unlisted | ⟨t, listed, out⟩
    · exact State.doReadTable_of_unlisted unlisted
    · cases read : s.readBank t bank with
      | none => exact State.doReadTable_of_no_bank listed read
      | some k =>
          refine (State.doReadTable_of_bank listed read).trans (if_pos (out.resolve_left ?_))
          rintro ⟨banked, beyond⟩
          unfold State.readBank at read
          rw [if_pos banked, BankNo.ofCode_of_gt beyond] at read
          cases read

/-! ## Write Staging -/

theorem writeChecked_of_unlisted {k : Bank} {table first count : Nat} {entries : List Byte}
    (h : ∀ t, Table.ofIdent table = some t → t.banked = false) : writeChecked k table first count entries = none := by
  unfold writeChecked
  split
  · rfl
  · next t listed => exact if_pos (.inl (h t listed))

theorem writeChecked_of_listed {k : Bank} {table first count : Nat} {entries : List Byte} {t : Table}
    (listed : Table.ofIdent table = some t) : writeChecked k table first count entries =
      if t.banked = false ∨ count < 1 ∨ 16 < count ∨ t.entries < first + count ∨ entries.length ≠ t.writeBytes first count then none
      else k.writeEntries t first count entries := by
  unfold writeChecked
  rw [listed]

theorem State.doWriteStaging_of_unlisted {bank table first count : Byte} {entries : List Byte} (free : s.policy.commit = .idle)
    (unlisted : LoadBank.ofCode bank.toNat = none) :
    s.doWriteStaging bank table first count entries = s.refuseRequest .range := by
  unfold State.doWriteStaging
  rw [if_neg (by simp [State.inFlight, free]), unlisted]

theorem State.doWriteStaging_of_other {bank table first count : Byte} {entries : List Byte} {x : LoadBank}
    (free : s.policy.commit = .idle) (listed : LoadBank.ofCode bank.toNat = some x) (other : x ≠ s.policy.staging) :
    s.doWriteStaging bank table first count entries = s.refuseRequest .state := by
  unfold State.doWriteStaging
  rw [if_neg (by simp [State.inFlight, free]), listed]
  exact if_pos other

theorem State.doWriteStaging_of_refused {bank table first count : Byte} {entries : List Byte} (free : s.policy.commit = .idle)
    (listed : LoadBank.ofCode bank.toNat = some s.policy.staging)
    (refused : writeChecked (s.loadBank s.policy.staging) table.toNat first.toNat count.toNat entries = none) :
    s.doWriteStaging bank table first count entries = s.refuseRequest .range := by
  unfold State.doWriteStaging
  rw [if_neg (by simp [State.inFlight, free]), listed]
  dsimp only
  rw [if_neg (not_not.2 rfl), refused]

theorem State.doWriteStaging_of_passed {bank table first count : Byte} {entries : List Byte} {k : Bank}
    (free : s.policy.commit = .idle) (listed : LoadBank.ofCode bank.toNat = some s.policy.staging)
    (passed : writeChecked (s.loadBank s.policy.staging) table.toNat first.toNat count.toNat entries = some k) :
    s.doWriteStaging bank table first count entries =
      (s.withPolicy (s.policy.setBank s.policy.staging k), { outcome := .done, data := [count] }) := by
  unfold State.doWriteStaging
  rw [if_neg (by simp [State.inFlight, free]), listed]
  dsimp only
  rw [if_neg (not_not.2 rfl), passed]

/-- A written bank holds what was written, and the other bank and the rest of the store are as they were. -/
theorem State.written_spec (s : State) (x : LoadBank) (k : Bank) :
    (s.withPolicy (s.policy.setBank x k)).loadBank x = k ∧
      (s.withPolicy (s.policy.setBank x k)).loadBank x.other = s.loadBank x.other ∧
      s.policy.setBank x k = { s.policy with bank1 := (s.policy.setBank x k).bank1, bank2 := (s.policy.setBank x k).bank2 } := by
  cases x <;> exact ⟨rfl, rfl, rfl⟩

/-- Settles O52: each refusal is the first test that fails, and a write that passes sets the staging bank. -/
theorem writeStagingIsJudged : Obligations.WriteStagingIsJudged := by
  intro who bank table first count entries s takes refused
  refine ⟨fun busy => exec_replied rfl rfl takes (if_pos (State.inFlight_eq_true.2 busy)), fun free one two =>
    exec_replied rfl rfl takes (State.doWriteStaging_of_unlisted free (LoadBank.ofCode_eq_none one two)),
    fun x free listed other => exec_replied rfl rfl takes (State.doWriteStaging_of_other free listed other),
    fun free listed => ⟨fun unbanked => exec_replied rfl rfl takes
      (State.doWriteStaging_of_refused free listed (writeChecked_of_unlisted unbanked)), fun t isTable banked =>
      ⟨fun out => ?_, fun low high start size => ⟨fun outside => ?_, fun k written => ?_⟩⟩⟩⟩
  · refine exec_replied rfl rfl takes (State.doWriteStaging_of_refused free listed ((writeChecked_of_listed isTable).trans (if_pos ?_)))
    rcases out with beyond | none | many | size
    · exact .inr (.inr (.inr (.inl beyond)))
    · exact .inr (.inl none)
    · exact .inr (.inr (.inl many))
    · exact .inr (.inr (.inr (.inr size)))
  all_goals
    have within : ¬ (t.banked = false ∨ count.toNat < 1 ∨ 16 < count.toNat ∨ t.entries < first.toNat + count.toNat ∨
        entries.length ≠ t.writeBytes first.toNat count.toNat) := by
      rintro (unbanked | none | many | beyond | other)
      · rw [banked] at unbanked
        cases unbanked
      · omega
      · omega
      · omega
      · exact other size
  · exact exec_replied rfl rfl takes (State.doWriteStaging_of_refused free listed
      ((writeChecked_of_listed isTable).trans ((if_neg within).trans outside)))
  · obtain ⟨set, kept, rest⟩ := s.written_spec s.policy.staging k
    exact ⟨_, exec_replied rfl rfl takes (State.doWriteStaging_of_passed free listed
      ((writeChecked_of_listed isTable).trans ((if_neg within).trans written))), set, kept, rest, s.withPolicy_frame _⟩

end Sys2Proof.Machine
end

section
/-! PROOFS. An entry written to a bank table reads back (R160, R162): each reader accepts only bytes that the entry's own bytes
spell. -/

namespace Sys2Proof.Machine

/-! ## Numbers in bytes -/

theorem byte_toNat (x : Byte) : byte x.toNat = x := by simp [byte]

theorem be2_beNat (x1 x0 : Byte) : be2 (beNat [x1, x0]) = [x1, x0] := by
  have value : beNat [x1, x0] = x1.toNat * 256 + x0.toNat := by simp [beNat]
  have low := x0.isLt
  rw [value, be2]
  congr 1
  · rw [← byte_toNat x1]
    exact BitVec.eq_of_toNat_eq (by simp only [byte, BitVec.toNat_ofNat]; omega)
  · congr 1
    exact BitVec.eq_of_toNat_eq (by simp only [byte, BitVec.toNat_ofNat]; omega)

theorem be3_beNat (x2 x1 x0 : Byte) : be3 (beNat [x2, x1, x0]) = [x2, x1, x0] := by
  have value : beNat [x2, x1, x0] = (x2.toNat * 256 + x1.toNat) * 256 + x0.toNat := by simp [beNat]
  have middle := x1.isLt
  have low := x0.isLt
  rw [value, be3]
  refine congrArg₂ _ ?_ (congrArg₂ _ ?_ (congrArg₂ _ ?_ rfl)) <;>
    exact BitVec.eq_of_toNat_eq (by simp only [byte, BitVec.toNat_ofNat]; omega)

theorem byte_beNat (x : Byte) : byte (beNat [x]) = x := by
  have value : beNat [x] = x.toNat := by simp [beNat]
  rw [value, byte_toNat]

theorem inRange_eq_some {lo hi n : Nat} {bytes : List Byte} :
    inRange lo hi bytes = some n ↔ beNat bytes = n ∧ lo ≤ n ∧ n ≤ hi := by
  unfold inRange
  constructor
  · intro h
    split at h
    · next within =>
      cases h
      exact ⟨rfl, within⟩
    · cases h
  · rintro ⟨rfl, within⟩
    exact if_pos within

/-! ## Codes -/

theorem Level.ofCode_code {n : Nat} {l : Level} (h : Level.ofCode n = some l) : l.code = n := by
  unfold Level.ofCode at h
  split at h <;> cases h <;> rfl

theorem Treatment.ofCode_code {n : Nat} {x : Treatment} (h : Treatment.ofCode n = some x) : x.code = n := by
  unfold Treatment.ofCode at h
  split at h <;> cases h <;> rfl

theorem Direction.ofCode_code {n : Nat} {x : Direction} (h : Direction.ofCode n = some x) : x.code = n := by
  unfold Direction.ofCode at h
  split at h <;> cases h <;> rfl

theorem Role.ofCode_code {n i : Nat} {r : Role} (h : Role.ofCode n i = some r) : r.code = n ∧ r.index = i := by
  unfold Role.ofCode at h
  split at h
  · split at h <;> cases h
    exact ⟨rfl, Eq.symm ‹_›⟩
  · split at h <;> cases h
    exact ⟨rfl, Eq.symm ‹_›⟩
  · split at h <;> cases h
    exact ⟨rfl, rfl⟩
  · split at h <;> cases h
    exact ⟨rfl, rfl⟩
  · split at h
    · cases h
      exact ⟨rfl, Eq.symm ‹_›⟩
    · split at h <;> cases h
      exact ⟨rfl, Eq.symm ‹_›⟩
  · split at h <;> cases h
    exact ⟨rfl, Eq.symm ‹_›⟩
  · cases h

/-! ## The readers -/

/-- What a reader accepts: an EMPTY entry, every byte 0, or a first byte with a rest that is read. -/
theorem readEntry_spec {α : Type} {f : Byte → List Byte → Option α} {bytes : List Byte} {o : Option α}
    (h : readEntry f bytes = some o) : bytes = zeros bytes.length ∧ o = none ∨
      ∃ first rest x, bytes = first :: rest ∧ f first rest = some x ∧ o = some x := by
  cases bytes with
  | nil => cases h
  | cons first rest =>
      simp only [readEntry] at h
      split at h
      · next empty =>
        split at h
        · next all =>
          cases h
          refine .inl ⟨List.eq_replicate_of_mem fun x mem => ?_, rfl⟩
          rcases List.mem_cons.1 mem with rfl | mem
          · exact empty
          · exact eq_of_beq (List.all_eq_true.1 all x mem)
        · cases h
      · obtain ⟨x, read, rfl⟩ := Option.map_eq_some_iff.1 h
        exact .inr ⟨first, rest, x, rfl, read, rfl⟩

theorem readPresent_spec {α : Type} {f : List Byte → Option α} {bytes : List Byte} {o : Option α}
    (h : readPresent f bytes = some o) : bytes = zeros bytes.length ∧ o = none ∨
      ∃ rest x, bytes = 1 :: rest ∧ f rest = some x ∧ o = some x := by
  rcases readEntry_spec h with empty | ⟨first, rest, x, rfl, read, rfl⟩
  · exact .inl empty
  · split at read
    · next one => exact .inr ⟨rest, x, by rw [one], read, rfl⟩
    · cases read

/-- An entry with a presence byte reads back if its fields do. -/
theorem presentBytes_of_readPresent {α : Type} {f : List Byte → Option α} {g : α → List Byte} {bytes : List Byte} {o : Option α}
    (h : readPresent f bytes = some o) (fields : ∀ rest x, f rest = some x → g x = rest) :
    presentBytes bytes.length g o = bytes := by
  rcases readPresent_spec h with ⟨empty, rfl⟩ | ⟨rest, x, rfl, read, rfl⟩
  · exact empty.symm
  · exact congrArg (List.cons 1) (fields rest x read)

theorem roleBytes_of_readRole {bytes : List Byte} {o : Option RoleEntry} (h : readRole bytes = some o) (size : bytes.length = 3) :
    roleBytes o = bytes := by
  rcases readEntry_spec h with ⟨empty, rfl⟩ | ⟨code, rest, x, rfl, read, rfl⟩
  · rw [size] at empty
    exact empty.symm
  · split at read
    · next node index =>
      split at read
      · cases read
      · obtain ⟨r, coded, rfl⟩ := Option.map_eq_some_iff.1 read
        obtain ⟨isCode, isIndex⟩ := Role.ofCode_code coded
        simp only [roleBytes, isCode, isIndex, byte_toNat]
    · cases read

theorem mapBytes_of_readMap {bytes : List Byte} {o : Option MapEntry} (h : readMap bytes = some o) (size : bytes.length = 8) :
    mapBytes o = bytes := by
  rcases readEntry_spec h with ⟨empty, rfl⟩ | ⟨code, rest, x, rfl, read, rfl⟩
  · rw [size] at empty
    exact empty.symm
  · split at read
    · next dir sl sh dl dh c1 c0 =>
      simp only [Option.bind_eq_bind, Option.bind_eq_some_iff] at read
      obtain ⟨treatment, isTreatment, direction, isDirection, read⟩ := read
      split at read
      · cases read
      · obtain ⟨classes, within, read⟩ := Option.bind_eq_some_iff.1 read
        obtain ⟨rfl, -, most⟩ := inRange_eq_some.1 within
        cases read
        have whole : (BitVec.ofNat 16 (beNat [c1, c0])).toNat = beNat [c1, c0] := by
          rw [BitVec.toNat_ofNat]
          exact Nat.mod_eq_of_lt (by omega)
        simp only [mapBytes, Treatment.ofCode_code isTreatment, Direction.ofCode_code isDirection, byte_toNat, whole, be2_beNat,
          List.cons_append, List.nil_append]
    · cases read

theorem defaultBytes_of_readDefault {bytes : List Byte} {o : Option Treatment} (h : readDefault bytes = some o) :
    defaultBytes o = bytes := by
  unfold readDefault at h
  split at h
  · obtain ⟨x, coded, rfl⟩ := Option.map_eq_some_iff.1 h
    simp only [defaultBytes, Option.map_some, Option.getD_some, Treatment.ofCode_code coded, byte_toNat]
  · cases h

theorem berthBytes_of_readBerth {bytes : List Byte} {o : Option BerthEntry} (h : readBerth bytes = some o)
    (size : bytes.length = 12) : berthBytes o = bytes := by
  have back := presentBytes_of_readPresent (g := fun z : BerthEntry => [z.station] ++ be3 z.start ++ be3 z.length ++ be2 z.margin ++
    be2 z.creep) h fun rest x read => by
      split at read
      · split at read
        · cases read
        · simp only [Option.bind_eq_bind, Option.bind_eq_some_iff, inRange_eq_some] at read
          obtain ⟨_, ⟨rfl, -⟩, _, ⟨rfl, -⟩, _, ⟨rfl, -⟩, _, ⟨rfl, -⟩, ⟨⟩⟩ := read
          simp only [be3_beNat, be2_beNat, List.cons_append, List.nil_append]
      · cases read
  rw [size] at back
  exact back

theorem windBytes_of_readWind {bytes : List Byte} {o : Option WindEntry} (h : readWind bytes = some o) (size : bytes.length = 11) :
    windBytes o = bytes := by
  have back := presentBytes_of_readPresent (g := fun w : WindEntry => be2 w.raiseGust ++ be2 w.raiseSust ++ be2 w.clearGust ++
    be2 w.clearSust ++ be2 w.holdDown) h fun rest x read => by
      split at read
      · simp only [Option.bind_eq_bind, Option.bind_eq_some_iff, inRange_eq_some] at read
        obtain ⟨_, ⟨rfl, -⟩, _, ⟨rfl, -⟩, _, ⟨rfl, -⟩, _, ⟨rfl, -⟩, _, ⟨rfl, -⟩, ⟨⟩⟩ := read
        simp only [be2_beNat, List.cons_append, List.nil_append]
      · cases read
  rw [size] at back
  exact back

theorem floorsBytes_of_readFloors {bytes : List Byte} {o : Option FloorsRecord} (h : readFloors bytes = some o)
    (size : bytes.length = 3) : floorsBytes o = bytes := by
  have back := presentBytes_of_readPresent (g := fun f : FloorsRecord => [byte f.quorum, byte f.blind.code]) h
    fun rest x read => by
      split at read
      · simp only [Option.bind_eq_bind, Option.bind_eq_some_iff, inRange_eq_some] at read
        obtain ⟨_, ⟨rfl, -⟩, _, -, l, coded, ⟨⟩⟩ := read
        simp only [byte_beNat, Level.ofCode_code coded, byte_toNat]
      · cases read
  rw [size] at back
  exact back

theorem limitBytes_of_readLimit {i : Nat} {bytes : List Byte} {o : Option LimitEntry} (h : readLimit i bytes = some o)
    (size : bytes.length = 4) : limitBytes o = bytes := by
  have back := presentBytes_of_readPresent (g := fun l : LimitEntry => be2 l.ceiling ++ [byte l.load]) h fun rest x read => by
      split at read
      · simp only [Option.bind_eq_bind, Option.bind_eq_some_iff, inRange_eq_some] at read
        obtain ⟨_, ⟨rfl, -⟩, _, ⟨rfl, -⟩, ⟨⟩⟩ := read
        simp only [be2_beNat, byte_beNat, List.cons_append, List.nil_append]
      · cases read
  rw [size] at back
  exact back

theorem numberBytes_of_readNumber {lo hi : Nat} {bytes : List Byte} {o : Option Nat} (h : readNumber lo hi bytes = some o)
    (size : bytes.length = 2) : numberBytes o = bytes := by
  have back := presentBytes_of_readPresent (g := fun n => [byte n]) h fun rest x read => by
      split at read
      · obtain ⟨rfl, -⟩ := inRange_eq_some.1 read
        rw [byte_beNat]
      · cases read
  rw [size] at back
  exact back

theorem flagByte_of_bit {x : Byte} (h : beNat [x] ≤ 1) : flagByte (decide (beNat [x] = 1)) = x := by
  rcases Nat.le_one_iff_eq_zero_or_eq_one.1 h with zero | one
  · rw [zero, ← byte_beNat x, zero]; rfl
  · rw [one, ← byte_beNat x, one]; rfl

theorem governorBytes_of_readGovernor {bytes : List Byte} {o : Option GovernorRecord} (h : readGovernor bytes = some o)
    (size : bytes.length = 12) : governorBytes o = bytes := by
  have back := presentBytes_of_readPresent (g := fun g : GovernorRecord => [byte g.accel] ++ be2 g.decel ++ be2 g.staleMs ++
    be2 g.encoderMs ++ be2 g.blind ++ [byte g.tolerance, flagByte g.reverse]) h fun rest x read => by
      split at read
      · simp only [Option.bind_eq_bind, Option.bind_eq_some_iff, inRange_eq_some] at read
        obtain ⟨_, ⟨rfl, -⟩, _, ⟨rfl, -⟩, _, ⟨rfl, -⟩, _, ⟨rfl, -⟩, _, ⟨rfl, -⟩, _, ⟨rfl, -⟩, _, ⟨rfl, -, bit⟩, ⟨⟩⟩ := read
        simp only [be2_beNat, byte_beNat, flagByte_of_bit bit, List.cons_append, List.nil_append]
      · cases read
  rw [size] at back
  exact back

theorem flushBytes_of_readFlush {bytes : List Byte} {o : Option Nat} (h : readFlush bytes = some o) (size : bytes.length = 3) :
    flushBytes o = bytes := by
  have back := presentBytes_of_readPresent (g := be2) h fun rest x read => by
      split at read
      · obtain ⟨rfl, -⟩ := inRange_eq_some.1 read
        rw [be2_beNat]
      · cases read
  rw [size] at back
  exact back

/-! ## The tables -/

theorem slot_set_self {α : Type} {n i : Nat} (v : Vector α n) (h : i < n) (x d : α) : slot (v.setIfInBounds i x) i d = x := by
  simp [slot, h]

theorem slot_set_of_ne {α : Type} {n i j : Nat} (v : Vector α n) (h : j ≠ i) (x d : α) :
    slot (v.setIfInBounds i x) j d = slot v j d := by
  rw [slot, slot, Vector.getElem?_setIfInBounds_ne h.symm]

section
variable {k k' : Bank} {t : Table} {i : Nat} {bytes : List Byte}

theorem Bank.entryBytes_treatmentMap (k : Bank) (i : Nat) : k.entryBytes .treatmentMap i =
    if i < 24 then mapBytes (slot k.map i none) else if i = 24 then defaultBytes k.defField else defaultBytes k.defSup := rfl

theorem Bank.writeEntry_treatmentMap (k : Bank) (i : Nat) (bytes : List Byte) : k.writeEntry .treatmentMap i bytes =
    if i < 24 then (readMap bytes).map fun x => { k with map := k.map.setIfInBounds i x }
    else if i = 24 then (readDefault bytes).map fun x => { k with defField := x }
    else (readDefault bytes).map fun x => { k with defSup := x } := rfl

/-- The entry written reads as the bytes it was written from. -/
theorem Bank.entryBytes_of_writeEntry (inside : i < t.entries) (size : bytes.length = t.writeSize i)
    (written : k.writeEntry t i bytes = some k') : k'.entryBytes t i = bytes := by
  cases t with
  | nodeRoles =>
      obtain ⟨x, read, rfl⟩ := Option.map_eq_some_iff.1 written
      exact (congrArg roleBytes (slot_set_self k.roles inside x none)).trans (roleBytes_of_readRole read size)
  | treatmentMap =>
      rw [Bank.writeEntry_treatmentMap] at written
      rw [Bank.entryBytes_treatmentMap]
      split_ifs at written ⊢ with entry field <;> obtain ⟨x, read, rfl⟩ := Option.map_eq_some_iff.1 written
      · rw [slot_set_self k.map entry x none]
        exact mapBytes_of_readMap read (size.trans (if_neg fun h => absurd h.2 (Nat.not_le.2 entry)))
      · exact defaultBytes_of_readDefault read
      · exact defaultBytes_of_readDefault read
  | berths =>
      obtain ⟨x, read, rfl⟩ := Option.map_eq_some_iff.1 written
      have back := berthBytes_of_readBerth read size
      unfold Bank.entryBytes
      dsimp only
      split_ifs <;> exact back
  | windLevels =>
      obtain ⟨x, read, rfl⟩ := Option.map_eq_some_iff.1 written
      exact (congrArg windBytes (slot_set_self k.windLevels inside x none)).trans (windBytes_of_readWind read size)
  | windFloors =>
      obtain ⟨x, read, rfl⟩ := Option.map_eq_some_iff.1 written
      exact floorsBytes_of_readFloors read size
  | ceilingsAndLimits =>
      obtain ⟨x, read, rfl⟩ := Option.map_eq_some_iff.1 written
      exact (congrArg limitBytes (slot_set_self k.limits inside x none)).trans (limitBytes_of_readLimit read size)
  | beaconPatterns =>
      obtain ⟨x, read, rfl⟩ := Option.map_eq_some_iff.1 written
      exact (congrArg numberBytes (slot_set_self k.beacons inside x none)).trans (numberBytes_of_readNumber read size)
  | governor =>
      obtain ⟨x, read, rfl⟩ := Option.map_eq_some_iff.1 written
      exact governorBytes_of_readGovernor read size
  | sweep =>
      obtain ⟨x, read, rfl⟩ := Option.map_eq_some_iff.1 written
      exact numberBytes_of_readNumber read size
  | noticeParams =>
      obtain ⟨x, read, rfl⟩ := Option.map_eq_some_iff.1 written
      exact flushBytes_of_readFlush read size
  | envelope | cabinRegister | grants | windChannels | drives | sweepList => cases written

/-- Another entry of the same table reads as before. -/
theorem Bank.entryBytes_of_other_entry {j : Nat} (here : i < t.entries) (there : j < t.entries) (other : j ≠ i)
    (written : k.writeEntry t i bytes = some k') : k'.entryBytes t j = k.entryBytes t j := by
  cases t with
  | nodeRoles =>
      obtain ⟨x, -, rfl⟩ := Option.map_eq_some_iff.1 written
      exact congrArg roleBytes (slot_set_of_ne k.roles other x none)
  | treatmentMap =>
      have last : i < 26 := here
      have last' : j < 26 := there
      rw [Bank.writeEntry_treatmentMap] at written
      rw [Bank.entryBytes_treatmentMap, Bank.entryBytes_treatmentMap]
      split_ifs at written with entry field <;> obtain ⟨x, -, rfl⟩ := Option.map_eq_some_iff.1 written
      · exact ite_congr rfl (fun _ => congrArg mapBytes (slot_set_of_ne k.map other x none)) fun _ => rfl
      · have away : j ≠ 24 := by omega
        rw [if_neg away, if_neg away]
      · refine ite_congr rfl (fun _ => rfl) fun high => ?_
        have field' : j = 24 := by omega
        rw [if_pos field', if_pos field']
  | berths =>
      have last : i < 2 := here
      have last' : j < 2 := there
      have places : i = 0 ∧ j = 1 ∨ i = 1 ∧ j = 0 := by omega
      obtain ⟨x, -, rfl⟩ := Option.map_eq_some_iff.1 written
      rcases places with ⟨rfl, rfl⟩ | ⟨rfl, rfl⟩ <;> rfl
  | windLevels =>
      obtain ⟨x, -, rfl⟩ := Option.map_eq_some_iff.1 written
      exact congrArg windBytes (slot_set_of_ne k.windLevels other x none)
  | ceilingsAndLimits =>
      obtain ⟨x, -, rfl⟩ := Option.map_eq_some_iff.1 written
      exact congrArg limitBytes (slot_set_of_ne k.limits other x none)
  | beaconPatterns =>
      obtain ⟨x, -, rfl⟩ := Option.map_eq_some_iff.1 written
      exact congrArg numberBytes (slot_set_of_ne k.beacons other x none)
  | windFloors | governor | sweep | noticeParams =>
      exact absurd ((Nat.lt_one_iff.1 there).trans (Nat.lt_one_iff.1 here).symm) other
  | envelope | cabinRegister | grants | windChannels | drives | sweepList => cases written

/-- A write changes the one table, so every other reads as before. -/
theorem Bank.entryBytes_of_other_table {x : Table} (other : x ≠ t) (j : Nat) (written : k.writeEntry t i bytes = some k') :
    k'.entryBytes x j = k.entryBytes x j := by
  cases t with
  | treatmentMap =>
      rw [Bank.writeEntry_treatmentMap] at written
      split_ifs at written <;> obtain ⟨_, -, rfl⟩ := Option.map_eq_some_iff.1 written <;> cases x <;>
        first | rfl | exact absurd rfl other
  | nodeRoles | berths | windLevels | windFloors | ceilingsAndLimits | beaconPatterns | governor | sweep | noticeParams =>
      obtain ⟨_, -, rfl⟩ := Option.map_eq_some_iff.1 written
      cases x <;> first | rfl | exact absurd rfl other
  | envelope | cabinRegister | grants | windChannels | drives | sweepList => cases written

end

/-- Settles O53: the entry itself, another entry of its table, and another table. -/
theorem writtenEntryReadsBack : Obligations.WrittenEntryReadsBack := by
  intro k k' t i bytes inside size written
  refine ⟨Bank.entryBytes_of_writeEntry inside size written, fun x j there apart => ?_⟩
  by_cases same : x = t
  · subst same
    exact Bank.entryBytes_of_other_entry inside there (apart.resolve_left (not_not.2 rfl)) written
  · exact Bank.entryBytes_of_other_table same j written

end Sys2Proof.Machine
end

section
/-! PROOFS. Frames at a port: what a run of bytes is judged to be (R2 to R4), the treatment a frame meets (R29, R30), and a
request's frame (R21, R27). -/

namespace Sys2Proof.Machine

variable {s t u : State} {f : Frame}

/-! ## The form of a run of bytes -/

/-- A run of bytes with any Length byte splits into its fields. -/
theorem splitFrame_run (dest src cls flags seq len : Byte) (payload : List Byte) (check : BitVec 16) :
    splitFrame ([dest, src, cls, flags, seq, len] ++ payload ++ be2 check.toNat) =
      some ({ dest := dest, src := src, cls := cls, flags := flags, seq := seq, payload := payload, check := check }, len.toNat) := by
  have long : ¬ (payload ++ be2 check.toNat).length < 2 := by simp [be2_length]
  have size : (payload ++ be2 check.toNat).length - 2 = payload.length := by simp [be2_length]
  simp only [List.cons_append, List.nil_append, splitFrame, long, if_false, size, List.take_left, List.drop_left, ofNat_beNat_be2]

theorem be2_ofNat_beNat (x1 x0 : Byte) : be2 (BitVec.ofNat 16 (beNat [x1, x0])).toNat = [x1, x0] := by
  have value : beNat [x1, x0] = x1.toNat * 256 + x0.toNat := by simp [beNat]
  have high := x1.isLt
  have low := x0.isLt
  have whole : (BitVec.ofNat 16 (beNat [x1, x0])).toNat = beNat [x1, x0] := by
    rw [BitVec.toNat_ofNat]
    exact Nat.mod_eq_of_lt (by omega)
  rw [whole, be2_beNat]

/-- A run of bytes that splits is the bytes of its fields with its Length byte. -/
theorem bytes_of_splitFrame {bytes : List Byte} {n : Nat} (h : splitFrame bytes = some (f, n)) : ∃ len : Byte, len.toNat = n ∧
    bytes = [f.dest, f.src, f.cls, f.flags, f.seq, len] ++ f.payload ++ be2 f.check.toNat := by
  unfold splitFrame at h
  split at h
  · next dest src cls flags seq len rest =>
    split at h
    · cases h
    · next long =>
      cases h
      have two : (rest.drop (rest.length - 2)).length = 2 := by rw [List.length_drop]; omega
      obtain ⟨x1, x0, check⟩ := List.length_eq_two.1 two
      refine ⟨len, rfl, ?_⟩
      dsimp only
      rw [check, be2_ofNat_beNat, ← check, List.append_assoc, List.take_append_drop]
      rfl
  · cases h

theorem splitFrame_of_short {bytes : List Byte} (short : bytes.length < 8) : splitFrame bytes = none := by
  unfold splitFrame
  split
  · next rest => exact if_pos (by simp only [List.length_cons] at short; omega)
  · rfl

theorem run_take (head payload : List Byte) (check : BitVec 16) :
    (head ++ payload ++ be2 check.toNat).take ((head ++ payload ++ be2 check.toNat).length - 2) = head ++ payload := by
  rw [List.length_append, be2_length, Nat.add_sub_cancel, List.take_left]

theorem run_drop (head payload : List Byte) (check : BitVec 16) :
    (head ++ payload ++ be2 check.toNat).drop ((head ++ payload ++ be2 check.toNat).length - 2) = be2 check.toNat := by
  rw [List.length_append, be2_length, Nat.add_sub_cancel, List.drop_left]

/-- A frame whose Length byte is right is all of its bytes. -/
theorem formOk_length {n : Nat} (h : formOk f n = true) : f.payload.length = n ∧ n ≤ 48 := by
  simp only [formOk, Bool.and_eq_true, decide_eq_true_iff] at h
  obtain ⟨⟨⟨most, size⟩, -⟩, -⟩ := h
  exact ⟨size, most⟩

/-- Settles O20: a run of bytes that is taken splits into a frame whose bytes it is. -/
theorem frameBytesRoundTrip : Obligations.FrameBytesRoundTrip := by
  refine ⟨fun f => judge_fill_bytes, fun bytes badStop f taken => ?_⟩
  unfold judge at taken
  split at taken
  · cases taken
  · next clean =>
    obtain ⟨fits, stop⟩ := Bool.or_eq_false_iff.1 (Bool.eq_false_iff.2 clean)
    have whole : (Staging.fill bytes badStop).bytes = bytes :=
      List.take_of_length_le (Nat.le_of_not_lt (of_decide_eq_false fits))
    rw [whole] at taken
    split at taken
    · cases taken
    · next g n split =>
      split_ifs at taken with check form
      cases taken
      obtain ⟨len, isLen, run⟩ := bytes_of_splitFrame split
      obtain ⟨size, most⟩ := formOk_length form
      have right : byte f.payload.length = len := by rw [size, ← isLen, byte_toNat]
      have isBytes : f.bytes = bytes := by rw [Frame.bytes, Frame.body, right, run]
      refine ⟨⟨by rw [size]; exact form, ?_⟩, stop, isBytes⟩
      rw [← isBytes, f.bytes_length, Nat.add_sub_cancel, Frame.bytes, List.take_left] at check
      exact (not_not.1 check).symm

/-! ## Dropped arrivals -/

/-- What R2 does not let pass. -/
theorem judge_badCheck {bytes : List Byte} {badStop : Bool} (h : bytes.length < 8 ∨ 56 < bytes.length ∨ badStop = true ∨
    crc (bytes.take (bytes.length - 2)) ≠ BitVec.ofNat 16 (beNat (bytes.drop (bytes.length - 2)))) :
    judge (Staging.fill bytes badStop) = .badCheck := by
  unfold judge
  split
  · rfl
  · next clean =>
    obtain ⟨fits, stop⟩ := Bool.or_eq_false_iff.1 (Bool.eq_false_iff.2 clean)
    have size : ¬ 56 < bytes.length := of_decide_eq_false fits
    have whole : (Staging.fill bytes badStop).bytes = bytes := List.take_of_length_le (Nat.le_of_not_lt size)
    rw [whole]
    split
    · rfl
    · next g n split =>
      refine if_pos ?_
      rcases h with short | long | bad | differs
      · rw [splitFrame_of_short short] at split
        cases split
      · exact absurd long size
      · exact absurd (bad.symm.trans stop) nofun
      · obtain ⟨len, -, run⟩ := bytes_of_splitFrame split
        have check : BitVec.ofNat 16 (beNat (bytes.drop (bytes.length - 2))) = g.check := by
          rw [run, run_drop, ofNat_beNat_be2]
        rw [check] at differs
        exact differs

/-- A frame whose check is right is taken or dropped by its form. -/
theorem judge_run {len : Byte} (small : f.payload.length ≤ 48) :
    let body := [f.dest, f.src, f.cls, f.flags, f.seq, len] ++ f.payload
    formOk f len.toNat = false →
      judge (Staging.fill (body ++ be2 (crc body).toNat) false) = .malformed { f with check := crc body } := by
  intro body ill
  have size : (body ++ be2 (crc body).toNat).length ≤ 56 := by
    simp only [body, List.length_append, List.length_cons, List.length_nil, be2_length]
    omega
  have filled : Staging.fill (body ++ be2 (crc body).toNat) false =
      { bytes := body ++ be2 (crc body).toNat, overran := false, badStop := false } := by
    rw [Staging.fill, List.take_of_length_le size, decide_eq_false (by omega)]
  have split := splitFrame_run f.dest f.src f.cls f.flags f.seq len f.payload (crc body)
  have checked := run_take [f.dest, f.src, f.cls, f.flags, f.seq, len] f.payload (crc body)
  have formless : formOk { f with check := crc body } len.toNat = false := ill
  simp only [filled, judge, body, split, checked, formless, Bool.or_self, Bool.false_eq_true, ne_eq, not_true_eq_false, if_false]

theorem formOk_of_other_length {n : Nat} (h : n ≠ f.payload.length) : formOk f n = false := by
  rw [formOk, decide_eq_false (p := f.payload.length = n) h.symm, Bool.and_false, Bool.false_and, Bool.false_and]

theorem State.arrive_of_badCheck {bytes : List Byte} {badStop : Bool} (p : Port) (s : State)
    (judged : judge (Staging.fill bytes badStop) = .badCheck) :
    s.arrive p bytes badStop = (s.received p).post .link false (portNumber p) 0 255 255 255 := by
  rw [State.arrive, State.judgeArrival, judged]
  rfl

theorem State.arrive_of_malformed {bytes : List Byte} {badStop : Bool} (p : Port) (s : State)
    (judged : judge (Staging.fill bytes badStop) = .malformed f) :
    s.arrive p bytes badStop = (s.received p).post .link false (portNumber p) 1 f.cls f.dest f.src := by
  rw [State.arrive, State.judgeArrival, judged]
  rfl

/-- Settles O23: the two judgements that drop an arrival. -/
theorem droppedArrivalPostsLink : Obligations.DroppedArrivalPostsLink := by
  intro p s running
  refine ⟨fun bytes badStop fails => ?_, fun f len small ill => ?_⟩
  · rw [exec_frameArrival, State.takeEvent_running running, s.arrive_of_badCheck p (judge_badCheck fails)]
    cases p <;> rfl
  · have formless : formOk f len.toNat = false := by
      by_cases same : len.toNat = f.payload.length
      · rw [same]
        exact ill.resolve_left (not_not.2 same)
      · exact formOk_of_other_length same
    intro body
    rw [exec_frameArrival, State.takeEvent_running running, s.arrive_of_malformed p (judge_run small formless)]
    cases p <;> rfl

/-! ## The treatment -/

theorem Treatment.stricter_spec (x y : Treatment) :
    (x.stricter y = x ∨ x.stricter y = y) ∧ x.code ≤ (x.stricter y).code ∧ y.code ≤ (x.stricter y).code := by
  unfold Treatment.stricter
  split
  · next stricter => exact ⟨.inr rfl, stricter.le, Nat.le_refl _⟩
  · next lenient => exact ⟨.inl rfl, Nat.le_refl _, Nat.le_of_not_lt lenient⟩

/-- The fold takes the strictest of the first treatment and the entries'. -/
theorem foldl_stricter_spec (l : List MapEntry) (x : Treatment) :
    let y := l.foldl (fun t n => t.stricter n.treatment) x
    (y = x ∨ ∃ m ∈ l, m.treatment = y) ∧ x.code ≤ y.code ∧ ∀ m ∈ l, m.treatment.code ≤ y.code := by
  induction l generalizing x with
  | nil => exact ⟨.inl rfl, Nat.le_refl _, nofun⟩
  | cons m l ih =>
      obtain ⟨one, above, others⟩ := ih (x.stricter m.treatment)
      obtain ⟨which, left, right⟩ := x.stricter_spec m.treatment
      refine ⟨?_, left.trans above, fun n mem => ?_⟩
      · rcases one with same | ⟨n, mem, same⟩
        · rcases which with isLeft | isRight
          · exact .inl (same.trans isLeft)
          · exact .inr ⟨m, List.mem_cons_self, (same.trans isRight).symm⟩
        · exact .inr ⟨n, List.mem_cons_of_mem _ mem, same⟩
      · rcases List.mem_cons.1 mem with rfl | mem
        · exact right.trans above
        · exact others n mem

theorem FrameClass.screened_iff {k : FrameClass} :
    k.screened = true ↔ k = .speedOrder ∨ k = .doorOrder ∨ k = .gateOrder := by
  cases k <;> simp [FrameClass.screened]

theorem isFieldOrder_iff {d : Direction} : isFieldOrder d f = true ↔
    d = .toField ∧ (f.kind = .speedOrder ∨ f.kind = .doorOrder ∨ f.kind = .gateOrder) := by
  rw [isFieldOrder, Bool.and_eq_true, decide_eq_true_iff, FrameClass.screened_iff]

theorem Bank.mapTreatment_of_nil {k : Bank} {d : Direction}
    (h : (k.map.toList.filterMap id).filter (fun m => m.matches d f) = []) : k.mapTreatment d f = k.defaultFor d := by
  unfold Bank.mapTreatment
  rw [h]

theorem Bank.mapTreatment_of_cons {k : Bank} {d : Direction} {m : MapEntry} {l : List MapEntry}
    (h : (k.map.toList.filterMap id).filter (fun m => m.matches d f) = m :: l) :
    k.mapTreatment d f = l.foldl (fun t n => t.stricter n.treatment) m.treatment := by
  unfold Bank.mapTreatment
  rw [h]

/-- Settles O22: the fold of the stricter treatment over the matching entries, and the one raise. -/
theorem treatmentIsTheStrictest : Obligations.TreatmentIsTheStrictest := by
  intro d f s matching mapped
  refine ⟨Bank.mapTreatment_of_nil, fun some => ?_, fun toField order => ?_, fun other => ?_⟩
  · cases listed : matching with
    | nil => exact absurd listed some
    | cons m l =>
        obtain ⟨one, above, others⟩ := foldl_stricter_spec l m.treatment
        have isMapped : mapped = l.foldl (fun t n => t.stricter n.treatment) m.treatment := Bank.mapTreatment_of_cons listed
        rw [isMapped]
        refine ⟨?_, fun n mem => ?_⟩
        · rcases one with same | ⟨n, mem, same⟩
          · exact ⟨m, List.mem_cons_self, same.symm⟩
          · exact ⟨n, List.mem_cons_of_mem _ mem, same⟩
        · rcases List.mem_cons.1 mem with rfl | mem
          · exact above
          · exact others n mem
  · exact ite_congr (propext ⟨And.right, And.intro (isFieldOrder_iff.2 ⟨toField, order⟩)⟩) (fun _ => rfl) fun _ => rfl
  · refine if_neg fun raised => ?_
    obtain ⟨toField, order⟩ := isFieldOrder_iff.1 raised.1
    exact other.elim (fun toSupervisor => absurd (toField.symm.trans toSupervisor) nofun) (· order)

/-! ## A request's frame -/

theorem RequestCode.ofCode_code (r : RequestCode) : RequestCode.ofCode (byte r.code).toNat = some r := by cases r <;> rfl

/-- The arguments of a request that the link can deliver fit behind its code and tag. -/
theorem requestOf_length {c : Instr} {r : RequestCode} {args : List Byte} (listed : requestOf c = some (r, args))
    (small : c.entryBytes.length ≤ maxEntryBytes) : args.length ≤ 45 := by
  cases c <;> cases listed
  case writeStaging => exact Nat.add_le_add_right small 4
  all_goals exact Nat.le_of_ble_eq_true rfl

theorem tag_of_be2 (tag : BitVec 16) : (byte (tag.toNat / 256) ++ byte tag.toNat : BitVec 16) = tag := by
  have high : byte (tag.toNat / 256) = tag.extractLsb' 8 8 := BitVec.eq_of_toNat_eq (by
    simp only [byte, BitVec.toNat_ofNat, BitVec.extractLsb'_toNat, Nat.shiftRight_eq_div_pow])
  have low : byte tag.toNat = tag.extractLsb' 0 8 := BitVec.eq_of_toNat_eq (by
    simp only [byte, BitVec.toNat_ofNat, BitVec.extractLsb'_toNat, Nat.shiftRight_zero])
  rw [high, low]
  exact append_extract tag

theorem Frame.build_good {dest src cls flags seq : Byte} {payload : List Byte} (small : payload.length ≤ 48) (node : src ≠ 255)
    (form : payloadOk (classOf cls) payload = true) : (Frame.build dest src cls flags seq payload).Good := by
  refine ⟨?_, rfl⟩
  have source : (src != 255) = true := bne_iff_ne.2 node
  simp only [formOk, Frame.build, Frame.kind, small, source, form, decide_true, Bool.and_self]

theorem State.received_of_empty (h : s.path.supStaging = Staging.empty) : s.received .supervisor = s := by
  have same : s.path.setStaging .supervisor Staging.empty = s.path := by rw [← h]; rfl
  rw [State.received, same]
  rfl

/-- A request frame from a supervisor is taken by the Request Handler. -/
theorem State.sortFrame_request (own : f.dest = s.envelope.own) (kind : f.kind = .request)
    (sup : s.requestSupervisor f.src = true) : s.sortFrame .supervisor f = s.takeRequest f := by
  unfold State.sortFrame State.takeOwn
  rw [if_pos own, kind]
  exact if_pos sup

theorem State.takeRequest_eq {node : Byte} {tag : BitVec 16} {r : RequestCode} {args : List Byte} (src : f.src = node)
    (payload : f.payload = byte r.code :: be2 tag.toNat ++ args) :
    s.takeRequest f = s.answer { node := node, tag := tag } fun s => s.handleListed r args := by
  unfold State.takeRequest
  rw [payload]
  dsimp only [be2, List.cons_append, List.nil_append]
  rw [src, tag_of_be2]
  unfold State.handleRequest
  rw [r.ofCode_code]

/-- Settles O21: the frame is good, and the Request Handler finds in it the request that the command stands for. -/
theorem requestFrameRunsItsCommand : Obligations.RequestFrameRunsItsCommand := by
  intro c who payload flags seq s wellFormed spelled asker running empty sup
  obtain ⟨source, entries⟩ := Bool.and_eq_true_iff.1 wellFormed
  rw [asker] at source
  have node : who.node ≠ 255 := bne_iff_ne.1 source
  cases listed : requestOf c with
  | none =>
      unfold requestPayload at spelled
      rw [listed] at spelled
      cases spelled
  | some request =>
      obtain ⟨r, args⟩ := request
      have spells : payload = byte r.code :: be2 who.tag.toNat ++ args := by
        unfold requestPayload at spelled
        rw [listed, asker] at spelled
        exact (Option.some.inj spelled).symm
      have fits := requestOf_length listed (of_decide_eq_true entries)
      have size : payload.length = 3 + args.length := by
        rw [spells, List.length_append]
        rfl
      have good : (Frame.build s.envelope.own who.node codeRequest flags seq payload).Good :=
        Frame.build_good (by omega) node (by
          show (decide (3 ≤ payload.length) && decide (payload.length ≤ 48)) = true
          simp only [Bool.and_eq_true, decide_eq_true_eq]
          omega)
      have taken := State.takeRequest_eq (s := s) (f := Frame.build s.envelope.own who.node codeRequest flags seq payload)
        (node := who.node) rfl spells
      rw [exec_frameArrival_good .supervisor running good, State.received_of_empty empty, State.sortFrame_request rfl rfl sup, taken,
        exec_request listed asker, State.takeEvent_running running]

end Sys2Proof.Machine
end

section
/-! PROOFS. The walk of a frame (R25, R27, R31 to R35): what each treatment makes of it, the refusals, and what noting a report
leaves alone. -/

namespace Sys2Proof.Machine

variable {s t u : State} {f : Frame} {p : Port}

/-! ## The treatments -/

theorem State.treat_of_pass (pass : s.treatmentOf (directionOf p) f = .pass) : s.treat p f = s.offerForward (exitPort p) f := by
  simp [State.treat, pass]

theorem State.treat_of_barred_order (bar : s.treatmentOf .toField f = .bar) (order : isFieldOrder .toField f = true) :
    s.treat .supervisor f = s.refuseUnscreened .barred f := by
  simp [State.treat, directionOf, bar, order]

theorem State.treat_of_screened_order (screen : s.treatmentOf .toField f = .screen) (order : isFieldOrder .toField f = true) :
    s.treat .supervisor f = s.screenOrder f := by
  simp [State.treat, directionOf, screen, order]

section
variable (other : isFieldOrder (directionOf p) f = false)
include other

theorem State.treat_of_barred (bar : s.treatmentOf (directionOf p) f = .bar) : s.treat p f = s.postRefused .barred false f := by
  simp [State.treat, bar, other]

theorem State.treat_of_inRange (screen : s.treatmentOf (directionOf p) f = .screen) (ok : s.siteOk (directionOf p) f = true) :
    s.treat p f = s.offerForward (exitPort p) f := by
  simp [State.treat, screen, other, ok]

theorem State.treat_of_outOfRange (screen : s.treatmentOf (directionOf p) f = .screen)
    (bad : s.siteOk (directionOf p) f = false) : s.treat p f = s.postRefused .badField false f := by
  simp [State.treat, screen, other, bad]

end

theorem isFieldOrder_toSupervisor : isFieldOrder .toSupervisor f = false := rfl

/-- No order is screened on its way to the supervisor side: a frame is offered to the forward queue or refused. -/
theorem State.treat_field_cases (s : State) (f : Frame) : s.treat .field f = s.offerForward .supervisor f ∨
    ∃ reason, s.treat .field f = s.postRefused reason false f := by
  cases treatment : s.treatmentOf .toSupervisor f with
  | pass => exact .inl (State.treat_of_pass treatment)
  | bar => exact .inr ⟨_, State.treat_of_barred isFieldOrder_toSupervisor treatment⟩
  | screen =>
      cases ok : s.siteOk .toSupervisor f with
      | true => exact .inl (State.treat_of_inRange isFieldOrder_toSupervisor treatment ok)
      | false => exact .inr ⟨_, State.treat_of_outOfRange isFieldOrder_toSupervisor treatment ok⟩

theorem State.takeOwn_field (s : State) (f : Frame) :
    s.takeOwn .field f = s.postRefused (if f.kind = .request then .notSupervisor else .unexpected) false f := by
  unfold State.takeOwn
  cases f.kind <;> rfl

theorem State.takeOwn_of_other (h : f.kind ≠ .request) : s.takeOwn p f = s.postRefused .unexpected false f := by
  unfold State.takeOwn
  split
  · exact absurd ‹_› h
  · exact absurd ‹_› h
  · rfl

theorem State.takeOwn_of_stranger (h : f.kind = .request) (stranger : s.requestSupervisor f.src = false) :
    s.takeOwn .supervisor f = s.postRefused .notSupervisor false f := by
  unfold State.takeOwn
  rw [h]
  exact if_neg (by rw [stranger]; nofun)

theorem State.sorted_of_own (own : f.dest = s.envelope.own) : s.sorted f = (s.received .field).takeOwn .field f := if_pos own

theorem State.sorted_of_other (other : f.dest ≠ s.envelope.own) : s.sorted f = (s.received .field).treat .field f := if_neg other

/-- What a frame from the field port meets before it is noted is an offer to the forward queue or a refusal. -/
theorem State.sorted_cases (s : State) (f : Frame) : s.sorted f = (s.received .field).offerForward .supervisor f ∨
    ∃ reason, s.sorted f = (s.received .field).postRefused reason false f := by
  by_cases own : f.dest = s.envelope.own
  · exact .inr ⟨_, (State.sorted_of_own own).trans (State.takeOwn_field _ f)⟩
  · rw [State.sorted_of_other own]
    exact State.treat_field_cases _ f

theorem State.received_frame (s : State) (p : Port) : s.OnlyChanges (s.received p) [.path] :=
  (Move.staging (q := true) s p _ (by decide)).onlyChanges

theorem State.sorted_frame (s : State) (f : Frame) : s.OnlyChanges (s.sorted f) [.path, .notices] := by
  have received : s.OnlyChanges (s.received .field) [.path, .notices] := (s.received_frame .field).mono (by decide)
  rcases s.sorted_cases f with offered | ⟨reason, refused⟩
  · rw [offered]
    exact received.trans (State.offerForward_frame _ _ _)
  · rw [refused]
    exact received.trans ((State.post_frame _ _ _ _ _ _ _ _).mono (by decide))

theorem State.sortFrame_field (s : State) (f : Frame) :
    (s.received .field).sortFrame .field f = (s.sorted f).handOver ((s.received .field).raisesBadField .field f) f := rfl

/-- A good frame that comes to the field port of a part at work. -/
theorem exec_fieldArrival (running : s.phase = .running) (good : f.Good) :
    exec (.frameArrival .field f.bytes false) s =
      .next ((s.sorted f).handOver ((s.received .field).raisesBadField .field f) f).close := by
  rw [exec_frameArrival_good .field running good, s.sortFrame_field]

/-- A good frame to another node that comes to the supervisor port of a part at work. -/
theorem exec_supervisorArrival (running : s.phase = .running) (good : f.Good) (other : f.dest ≠ s.envelope.own)
    (treated : (s.received .supervisor).treat .supervisor f = t) :
    exec (.frameArrival .supervisor f.bytes false) s = .next t.close := by
  have sorted : (s.received .supervisor).sortFrame .supervisor f = (s.received .supervisor).treat .supervisor f := if_neg other
  rw [exec_frameArrival_good .supervisor running good, sorted, treated]

/-! ## Frames that no block notes -/

theorem State.notes_congr (active : t.active = s.active) (f : Frame) : t.notes f = s.notes f := by
  unfold State.notes
  rw [active]

theorem State.handOver_of_not_noted (h : s.notes f = false) (told : Bool) : s.handOver told f = s := by
  unfold State.handOver
  split
  case h_6 => rfl
  all_goals
    next kind role payload =>
    unfold State.notes at h
    rw [kind, role] at h
    cases h

theorem State.sorted_active (s : State) (f : Frame) : (s.sorted f).active = s.active :=
  State.active_congr (s.sorted_frame f .policy (by decide))

theorem State.exec_of_not_noted (running : s.phase = .running) (good : f.Good) (h : s.notes f = false) :
    exec (.frameArrival .field f.bytes false) s = .next (s.sorted f).close := by
  rw [exec_fieldArrival running good, State.handOver_of_not_noted ((State.notes_congr (s.sorted_active f) f).trans h)]

theorem State.offerForward_field_of_room (h : s.path.fldForward.length < 16) :
    s.offerForward .field f = s.withPath { s.path with fldForward := s.path.fldForward ++ [f] } := if_pos h

theorem State.offerForward_field_of_full (h : 16 ≤ s.path.fldForward.length) :
    s.offerForward .field f = s.post .link false 1 2 f.cls f.dest f.src := if_neg (Nat.not_lt.2 h)

theorem State.offerForward_supervisor_of_room (h : s.path.supForward.length < 16) :
    s.offerForward .supervisor f = s.withPath { s.path with supForward := s.path.supForward ++ [f] } := if_pos h

theorem State.offerForward_supervisor_of_full (h : 16 ≤ s.path.supForward.length) :
    s.offerForward .supervisor f = s.post .link false 0 2 f.cls f.dest f.src := if_neg (Nat.not_lt.2 h)

/-- Settles O24: a passed frame is offered to the other port's forward queue. -/
theorem passedFrameIsForwarded : Obligations.PassedFrameIsForwarded := by
  intro f s running good other
  refine ⟨fun pass => ?_, fun pass => ?_, State.exec_of_not_noted running good⟩
  · have offered : (s.received .supervisor).treat .supervisor f = (s.received .supervisor).offerForward .field f :=
      State.treat_of_pass (p := .supervisor) pass
    refine ⟨fun room => exec_supervisorArrival running good other (offered.trans (State.offerForward_field_of_room room)),
      fun full => exec_supervisorArrival running good other (offered.trans (State.offerForward_field_of_full full))⟩
  · have offered : s.sorted f = (s.received .field).offerForward .supervisor f :=
      (State.sorted_of_other other).trans (State.treat_of_pass (p := .field) pass)
    exact ⟨fun room => offered.trans (State.offerForward_supervisor_of_room room),
      fun full => offered.trans (State.offerForward_supervisor_of_full full)⟩

/-! ## The site's ranges -/

theorem isStation_iff {r : Option Role} : isStation r = true ↔ ∃ berth, r = some (.station berth) := by
  rcases r with _ | _ | _ | _ | _ | _ | _ <;> simp [isStation]

theorem isDrive_iff {r : Option Role} : isDrive r = true ↔ ∃ d, r = some (.drive d) := by
  rcases r with _ | _ | _ | _ | _ | _ | _ <;> simp [isDrive, Role.isDrive]

theorem isAnemometer_iff {r : Option Role} : isAnemometer r = true ↔ ∃ c, r = some (.anemometer c) := by
  rcases r with _ | _ | _ | _ | _ | _ | _ <;> simp [isAnemometer, Role.isAnemometer]

/-- The subject of a refusal, by the classes that name a cabin, those that name a node of the field, and the rest. -/
theorem Frame.refusedSubject_eq (f : Frame) : f.refusedSubject =
    if f.kind = .doorOrder ∨ f.kind = .doorReport ∨ f.kind = .countReport then f.payload.headD 0
    else if f.kind = .speedOrder ∨ f.kind = .gateOrder ∨ f.kind = .beaconOrder then f.dest else f.src := by
  unfold Frame.refusedSubject
  cases f.kind <;> rfl

theorem State.refuseUnscreened_screen (mode : s.mode = .screen) (r : Reason) :
    s.refuseUnscreened r f = s.postRefused r false f := by
  have quiet : s.noteMonitorSpeed f = s := if_neg (by rw [mode]; nofun)
  rw [State.refuseUnscreened, quiet, State.refuseOrder, if_neg (by rw [mode]; nofun)]

theorem State.noteMonitorSpeed_mode (s : State) (f : Frame) : (s.noteMonitorSpeed f).mode = s.mode :=
  (Move.noteMonitorSpeed (q := true) s f).onlyChanges .mode (by decide)

theorem State.refuseUnscreened_monitor (mode : s.mode = .monitor) (r : Reason) :
    s.refuseUnscreened r f = ((s.noteMonitorSpeed f).postRefused r true f).offerForward .field f := by
  rw [State.refuseUnscreened, State.refuseOrder, if_pos (by rw [State.noteMonitorSpeed_mode, mode])]

theorem State.noteMonitorSpeed_drive {d : DriveIx} {hi lo brake : Byte} (mode : s.mode = .monitor) (kind : f.kind = .speedOrder)
    (payload : f.payload = [hi, lo, brake]) (role : s.active.roleOf f.dest = some (.drive d)) :
    s.noteMonitorSpeed f = s.withDrive d { s.drive d with speed := signed2 hi lo } := by
  simp only [State.noteMonitorSpeed, mode, kind, payload, role, if_true]
  rfl

theorem State.noteMonitorSpeed_other (h : f.kind ≠ .speedOrder ∨ ∀ d, s.active.roleOf f.dest ≠ some (.drive d)) :
    s.noteMonitorSpeed f = s := by
  unfold State.noteMonitorSpeed
  split
  · split
    · next d hi lo brake kind role payload => exact h.elim (absurd kind) fun drives => absurd role (drives d)
    · rfl
  · rfl

theorem State.screenOrder_of_stranger (stranger : s.orderSupervisor f.src = false) :
    s.screenOrder f = s.refuseUnscreened .notSupervisor f := if_pos stranger

theorem State.screenOrder_of_broadcast (sup : s.orderSupervisor f.src = true) (all : f.dest = 255) :
    s.screenOrder f = s.refuseUnscreened .broadcast f := by
  rw [State.screenOrder, if_neg (by simp [sup]), if_pos all]

/-- An order of a speed or a gate to a node without its role passes its screen. -/
theorem State.toScreen_of_no_role (h : f.kind = .speedOrder ∧ (∀ d, s.active.roleOf f.dest ≠ some (.drive d)) ∨
    f.kind = .gateOrder ∧ ∀ berth, s.active.roleOf f.dest ≠ some (.station berth)) :
    s.toScreen f = s.offerForward .field f := by
  unfold State.toScreen
  split
  · next kind payload =>
    split
    · next d role =>
      rcases h with ⟨-, drives⟩ | ⟨gate, -⟩
      · exact absurd role (drives d)
      · exact absurd (kind.symm.trans gate) nofun
    · rfl
  · next kind payload =>
    split
    · next berth role =>
      rcases h with ⟨speed, -⟩ | ⟨-, stations⟩
      · exact absurd (kind.symm.trans speed) nofun
      · exact absurd role (stations berth)
    · rfl
  · next kind payload =>
    rcases h with ⟨speed, -⟩ | ⟨gate, -⟩
    · exact absurd (kind.symm.trans speed) nofun
    · exact absurd (kind.symm.trans gate) nofun
  · rfl

/-! ## Reports of a cabin above N -/

/-- The form of a report of a door or a count: its cabin comes first, and is no 0. -/
theorem Frame.Good.doorReport (good : f.Good) (kind : f.kind = .doorReport) :
    ∃ cabin door, f.payload = [cabin, door] ∧ 1 ≤ cabin.toNat ∧ cabin.toNat ≤ 64 ∧ door.toNat ≤ 3 := by
  obtain ⟨form, -⟩ := good
  obtain ⟨-, ok⟩ := Bool.and_eq_true_iff.1 form
  rw [kind] at ok
  unfold payloadOk at ok
  dsimp only at ok
  split at ok
  · next cabin door payload =>
    simp only [Bool.and_eq_true, decide_eq_true_eq] at ok
    obtain ⟨⟨least, most⟩, states⟩ := ok
    exact ⟨cabin, door, payload, least, most, states⟩
  · cases ok

theorem Frame.Good.countReport (good : f.Good) (kind : f.kind = .countReport) :
    ∃ cabin boarded alighted, f.payload = [cabin, boarded, alighted] ∧ 1 ≤ cabin.toNat ∧ cabin.toNat ≤ 64 := by
  obtain ⟨form, -⟩ := good
  obtain ⟨-, ok⟩ := Bool.and_eq_true_iff.1 form
  rw [kind] at ok
  unfold payloadOk at ok
  dsimp only at ok
  split at ok
  · next cabin boarded alighted payload =>
    simp only [Bool.and_eq_true, decide_eq_true_eq] at ok
    obtain ⟨least, most⟩ := ok
    exact ⟨cabin, boarded, alighted, payload, least, most⟩
  · cases ok

/-- A report of a door or a count, by the role of its source, that names a cabin above N. -/
def State.ReportsAboveN (s : State) (f : Frame) : Prop :=
  (f.kind = .doorReport ∧ s.active.roleOf f.src = some .hub ∨
    f.kind = .countReport ∧ ∃ berth, s.active.roleOf f.src = some (.station berth)) ∧
  s.present (f.payload.headD 0).toNat = false

theorem State.ReportsAboveN.congr (h : s.ReportsAboveN f) (active : t.active = s.active) (envelope : t.envelope = s.envelope) :
    t.ReportsAboveN f := by
  unfold State.ReportsAboveN State.present
  rw [active, envelope]
  exact h

theorem State.ReportsAboveN.handOver (h : s.ReportsAboveN f) (good : f.Good) (told : Bool) :
    s.handOver told f = s.noteAboveN told f := by
  obtain ⟨⟨kind, role⟩ | ⟨kind, berth, role⟩, absent⟩ := h
  · obtain ⟨cabin, door, payload, -⟩ := good.doorReport kind
    rw [payload] at absent
    have absent : s.present cabin.toNat = false := absent
    simp [State.handOver, kind, role, payload, absent]
  · obtain ⟨cabin, boarded, alighted, payload, -⟩ := good.countReport kind
    rw [payload] at absent
    have absent : s.present cabin.toNat = false := absent
    simp [State.handOver, kind, role, payload, absent]

theorem State.ReportsAboveN.outOfRange (h : s.ReportsAboveN f) (good : f.Good) : s.siteOk .toSupervisor f = false := by
  have judged {cabin : Byte} (least : 1 ≤ cabin.toNat) (absent : s.present cabin.toNat = false) :
      decide (cabin.toNat ≤ s.envelope.count) = false :=
    decide_eq_false fun within => Bool.eq_false_iff.1 absent (State.present_iff.2 ⟨least, within⟩)
  obtain ⟨⟨kind, -⟩ | ⟨kind, -⟩, absent⟩ := h
  · obtain ⟨cabin, door, payload, least, -⟩ := good.doorReport kind
    rw [payload] at absent
    unfold State.siteOk Frame.cabin
    rw [kind, payload]
    exact judged least absent
  · obtain ⟨cabin, boarded, alighted, payload, least, -⟩ := good.countReport kind
    rw [payload] at absent
    unfold State.siteOk Frame.cabin
    rw [kind, payload]
    exact judged least absent

theorem State.raisesBadField_of_own (own : f.dest = s.envelope.own) : s.raisesBadField p f = false := by
  simp [State.raisesBadField, own]

theorem State.raisesBadField_of_unscreened (h : s.treatmentOf (directionOf p) f ≠ .screen) : s.raisesBadField p f = false := by
  simp [State.raisesBadField, h]

theorem State.raisesBadField_of_outOfRange (other : f.dest ≠ s.envelope.own) (screen : s.treatmentOf .toSupervisor f = .screen)
    (bad : s.siteOk .toSupervisor f = false) : s.raisesBadField .field f = true := by
  simp [State.raisesBadField, other, directionOf, screen, bad, isFieldOrder_toSupervisor]

/-- A report of a cabin above N raises BAD_FIELD behind the treatment, unless that has raised it. -/
theorem State.ReportsAboveN.exec (h : s.ReportsAboveN f) (running : s.phase = .running) (good : f.Good) :
    exec (.frameArrival .field f.bytes false) s =
      .next ((s.sorted f).noteAboveN ((s.received .field).raisesBadField .field f) f).close := by
  rw [exec_fieldArrival running good,
    (h.congr (s.sorted_active f) (s.sorted_frame f .envelope (by decide))).handOver good]

/-! ## The queues to the supervisor side -/

/-- What waits for the supervisor port, and what it sends, is the same in two states. -/
structure State.SparesSupervisor (s t : State) : Prop where
  forward     : t.path.supForward = s.path.supForward
  part        : t.path.part = s.path.part
  transmitter : t.path.supTx = s.path.supTx

namespace State.SparesSupervisor

theorem refl (s : State) : s.SparesSupervisor s := ⟨rfl, rfl, rfl⟩

theorem trans (h : s.SparesSupervisor t) (k : t.SparesSupervisor u) : s.SparesSupervisor u :=
  ⟨k.forward.trans h.forward, k.part.trans h.part, k.transmitter.trans h.transmitter⟩

theorem of_path (h : t.path = s.path) : s.SparesSupervisor t := by
  constructor <;> rw [h]

theorem of_frame {bs : List Block} (h : s.OnlyChanges t bs) (path : Block.path ∉ bs) : s.SparesSupervisor t :=
  of_path (h .path path)

/-- A move that posts no notice adds to the origin queue alone: an offer may post, and so may a restart. -/
theorem of_move {q : Bool} {bs : List Block} (h : Move q bs s t) (notices : Block.notices ∉ bs) : s.SparesSupervisor t := by
  induction h with
  | keep _ path _ _ => exact of_path path
  | offer s p f within => exact absurd (within (by decide)) notices
  | restart s within => exact absurd (within (by decide)) notices
  | staging s p x _ => cases p <;> exact ⟨rfl, rfl, rfl⟩
  | post s k m b d0 d1 d2 d3 within => exact of_path (s.post_path k m b d0 d1 d2 d3)
  | originate | advance | drain | resume | endRestart => exact ⟨rfl, rfl, rfl⟩
  | trans _ _ ih ik => exact ih.trans ik

theorem foldl {α : Type} {g : State → α → State} (h : ∀ (s : State) (a : α), s.SparesSupervisor (g s a)) (l : List α)
    (s : State) : s.SparesSupervisor (l.foldl g s) := by
  induction l generalizing s with
  | nil => exact refl s
  | cons a l ih => exact (h s a).trans (ih _)

theorem ite {c : Prop} [Decidable c] (h : s.SparesSupervisor t) (k : s.SparesSupervisor u) :
    s.SparesSupervisor (if c then t else u) := by
  split
  · exact h
  · exact k

theorem post (s : State) (kind : NoticeKind) (m : Bool) (x d0 d1 d2 d3 : Byte) :
    s.SparesSupervisor (s.post kind m x d0 d1 d2 d3) := of_path (s.post_path kind m x d0 d1 d2 d3)

theorem changeLevel (s : State) (l : Level) : s.SparesSupervisor (s.changeLevel l) := by
  rw [State.changeLevel_eq]
  exact ((of_frame (s.levelSet_frame l) (by decide)).trans (of_frame (Move.sweepLevel (q := true) _).onlyChanges (by decide))).trans
    (of_move (Move.refreshBeacons (q := true) _) (by decide))

theorem applyFloors (s : State) : s.SparesSupervisor s.applyFloors := ite (changeLevel s _) (refl s)

theorem takeBank (s : State) : s.SparesSupervisor s.takeBank := by
  have reassigned (u : State) : u.SparesSupervisor u.reassigned :=
    of_frame (Move.trans (.foldl (Move.reassignChannel (q := true)) _ _)
      ((Move.recomputeWind _).mono (by decide))).onlyChanges (by decide)
  have banked (u : State) : u.SparesSupervisor u.windBankChange := by
    rw [State.windBankChange_eq]
    exact (ite ((reassigned u).trans (applyFloors _)) ((reassigned u).trans
      (of_frame (Move.trimCountdown (q := true) _).onlyChanges (by decide)))).trans
      (of_move (Move.resendBeacons (q := true) _) (by decide))
  exact ((of_frame (Move.rimBankChange (q := true) s).onlyChanges (by decide)).trans (banked _)).trans
    (of_frame (Move.recomputeBoarding _).onlyChanges (by decide))

/-- A swap with no restart deferred. -/
theorem afterGrants (before : State) (h : s.policy.commit ≠ .pending ∨ s.policy.deferred = false) :
    s.SparesSupervisor (s.afterGrants before) := by
  have swapped (direct : s.policy.deferred = false) : s.SparesSupervisor s.swapBanks := by
    unfold State.swapBanks
    split
    · exact refl s
    · next x bank =>
      dsimp only
      rw [if_neg (by rw [direct]; nofun)]
      have banks : s.SparesSupervisor (s.withPolicy (s.policy.swapTo x)) := of_frame (s.withPolicy_frame _) (by decide)
      exact (banks.trans (of_frame (Move.postCommit _ _).onlyChanges (by decide))).trans (takeBank _)
  unfold State.afterGrants
  split
  · rcases h with idle | direct
    · rw [State.trySwap_of_unsafe (.inl idle)]
      exact refl s
    · unfold State.trySwap
      split
      · exact swapped direct
      · exact refl s
  · exact refl s

theorem takeDoor (s : State) (c : Nat) (d : DoorState) : s.SparesSupervisor (s.takeDoor c d) :=
  of_frame (Move.takeDoor s c d).onlyChanges (by decide)

theorem takeZoneEvent (s : State) (e : ZoneEvent) : s.SparesSupervisor (s.takeZoneEvent e) := by
  cases e with
  | exit c berth side =>
      exact ((of_frame (Move.stampExit (q := true) s c).onlyChanges (by decide)).trans
        (of_frame (Move.boardExit _ c berth).onlyChanges (by decide))).trans
        (of_frame (Move.sweepExit (q := true) _ c berth).onlyChanges (by decide))
  | entry c berth => exact of_frame (Move.setServed (q := true) s c false).onlyChanges (by decide)
  | withdraw c berth => exact of_move (Move.boardWithdraw s c berth) (by decide)

theorem takeGoodRim (s : State) (p : Nat) (v : Int) : s.SparesSupervisor (s.takeGoodRim p v) := by
  have fixed (x : RimTracker) : s.SparesSupervisor (s.withRim x).recomputeCeilings := of_path rfl
  have marked (u : State) (x : RimTracker) : u.SparesSupervisor (u.withRim x) := of_path rfl
  unfold State.takeGoodRim
  exact ((fixed _).trans (foldl takeZoneEvent _ _)).trans (marked _ _)

theorem takeCount (s : State) (berth : Berth) (c x y : Nat) (f : Frame) : s.SparesSupervisor (s.takeCount berth c x y f) := by
  have counted : s.SparesSupervisor (s.withCabin c ((s.cabin c).counted x y)) :=
    of_path (State.withCabin_path _ _ _)
  have told : ∀ (q : Prop) (_ : Decidable q), s.SparesSupervisor (if q then s.withCabin c ((s.cabin c).counted x y)
      else (s.withCabin c ((s.cabin c).counted x y)).postCabin c .count) := fun q _ =>
    ite counted (counted.trans (post _ _ _ _ _ _ _ _))
  unfold State.takeCount
  exact ite (ite ((told _ _).trans (of_move (Move.closeEntry (q := true) (bs := [.path]) _ _ (by decide)) (by decide))) (told _ _))
    ((told _ _).trans (post _ _ _ _ _ _ _ _))

theorem noteAboveN (s : State) (told : Bool) (f : Frame) : s.SparesSupervisor (s.noteAboveN told f) :=
  ite (refl s) (post _ _ _ _ _ _ _ _)

theorem handOver (h : s.policy.commit ≠ .pending ∨ s.policy.deferred = false) (told : Bool) (f : Frame) :
    s.SparesSupervisor (s.handOver told f) := by
  have rim (p : Nat) (v : Int) : (s.takeGoodRim p v).policy = s.policy := (Move.takeGoodRim s p v).onlyChanges .policy (by decide)
  have door (c : Nat) (d : DoorState) : (s.takeDoor c d).policy = s.policy := (Move.takeDoor s c d).onlyChanges .policy (by decide)
  unfold State.handOver
  split
  · exact ite ((takeGoodRim s _ _).trans (afterGrants _ (by rw [rim]; exact h)))
      (of_frame (Move.losePosition s).onlyChanges (by decide))
  · exact ite (of_frame (Move.takeSample (q := true) s _ _ _).onlyChanges (by decide)) (refl s)
  · exact ite ((takeDoor s _ _).trans (afterGrants _ (by rw [door]; exact h))) (noteAboveN s told f)
  · exact ite (takeCount s _ _ _ _ f) (noteAboveN s told f)
  · exact of_frame (Move.takeGates (q := true) s _ _ _).onlyChanges (by decide)
  · exact refl s

end State.SparesSupervisor

theorem State.sorted_supTx (s : State) (f : Frame) : (s.sorted f).path.supTx = s.path.supTx := by
  have offered (u : State) : (u.offerForward .supervisor f).path.supTx = u.path.supTx := by
    unfold State.offerForward
    dsimp only
    split
    · rfl
    · rw [State.postCongestion, State.post_path]
  rcases s.sorted_cases f with sorted | ⟨reason, sorted⟩
  · rw [sorted, offered]
    rfl
  · rw [sorted, State.postRefused, State.post_path]
    rfl

theorem State.treatmentOf_received (s : State) (p : Port) (d : Direction) (f : Frame) :
    (s.received p).treatmentOf d f = s.treatmentOf d f := rfl

/-- Settles O25: each clause is the refusal or the offer that the treatment, the mode and the range give. -/
theorem sorterDealsWithArrivals : Obligations.SorterDealsWithArrivals := by
  intro f s running good order subject inRange arrive told refused orderRefused aboveN
  have post (u : State) (r : Reason) (m : Bool) :
      u.postRefused r m f = u.post .refused m subject (byte r.code) f.cls f.dest f.src := by
    rw [State.postRefused, f.refusedSubject_eq]
  have isOrder : isFieldOrder .toField f = true ↔ order := isFieldOrder_iff.trans (and_iff_right rfl)
  have range (d : Direction) : s.siteOk d f = true ↔ inRange (f.fieldSide d) := by
    simp only [inRange]
    unfold State.siteOk Frame.cabin
    cases f.kind <;>
      simp only [isStation_iff, isDrive_iff, isAnemometer_iff, decide_eq_true_iff]
  have outOfRange {d : Direction} (out : ¬ inRange (f.fieldSide d)) : s.siteOk d f = false :=
    Bool.eq_false_iff.2 fun ok => out ((range d).1 ok)
  have fromSupervisor {t : State} (other : f.dest ≠ s.envelope.own)
      (treated : (s.received .supervisor).treat .supervisor f = t) : arrive .supervisor = .next t.close :=
    exec_supervisorArrival running good other treated
  have unscreened (r : Reason) {reason : Byte} (code : byte r.code = reason) (other : f.dest ≠ s.envelope.own)
      (treated : (s.received .supervisor).treat .supervisor f = (s.received .supervisor).refuseUnscreened r f) :
      orderRefused reason := by
    rw [← code]
    refine ⟨fun screen => fromSupervisor other (treated.trans ?_), fun monitor =>
      ⟨(s.received .supervisor).noteMonitorSpeed f, fromSupervisor other (treated.trans ?_), ?_, ?_⟩⟩
    · rw [State.refuseUnscreened_screen (s := s.received .supervisor) screen, post]
    · rw [State.refuseUnscreened_monitor (s := s.received .supervisor) monitor, post]
    · exact fun d hi lo brake kind payload role =>
        State.noteMonitorSpeed_drive (s := s.received .supervisor) monitor kind payload role
    · exact State.noteMonitorSpeed_other (s := s.received .supervisor)
  have noted (above : aboveN) {v : State} (sorted : s.sorted f = v) {raised : Bool}
      (raises : (s.received .field).raisesBadField .field f = raised) : arrive .field = .next (v.noteAboveN raised f).close := by
    rw [← sorted, ← raises]
    exact State.ReportsAboveN.exec (s := s) above running good
  have already (v : State) : v.noteAboveN true f = v := if_pos rfl
  have again (v : State) : v.noteAboveN false f = v.post .refused false subject 4 f.cls f.dest f.src := post v .badField false
  refine ⟨fun own => ?own, fun other => ?elsewhere, State.exec_of_not_noted running good, fun direct => ?queues⟩
  case own =>
    have taken {t : State} (takes : (s.received .supervisor).takeOwn .supervisor f = t) : arrive .supervisor = .next t.close := by
      have sorted : (s.received .supervisor).sortFrame .supervisor f = (s.received .supervisor).takeOwn .supervisor f := if_pos own
      rw [← takes, ← sorted]
      exact exec_frameArrival_good .supervisor running good
    have sorted : s.sorted f = told .field (if f.kind = .request then 2 else 3) := by
      rw [State.sorted_of_own own, State.takeOwn_field, post]
      split <;> rfl
    refine ⟨fun kind stranger => taken ?_, fun kind => taken ?_, sorted, fun above => ?_⟩
    · rw [State.takeOwn_of_stranger (s := s.received .supervisor) kind stranger, post]
      rfl
    · rw [State.takeOwn_of_other kind, post]
      rfl
    · have report : f.kind ≠ .request := fun request => by
        obtain ⟨⟨kind, -⟩ | ⟨kind, -⟩, -⟩ := above <;> exact absurd (kind.symm.trans request) nofun
      rw [if_neg report] at sorted
      rw [noted above sorted (State.raisesBadField_of_own (s := s.received .field) own), again]
  case elsewhere =>
    have notOrder (isNone : ¬ order) : isFieldOrder .toField f = false := Bool.eq_false_iff.2 fun isOne => isNone (isOrder.1 isOne)
    have screened (screen : s.treatmentOf .toField f = .screen) (isOne : order) :
        (s.received .supervisor).treat .supervisor f = (s.received .supervisor).screenOrder f :=
      State.treat_of_screened_order (s := s.received .supervisor) screen (isOrder.2 isOne)
    have passed (pass : s.treatmentOf .toSupervisor f = .pass) : s.sorted f = (s.received .field).offerForward .supervisor f :=
      (State.sorted_of_other other).trans (State.treat_of_pass (s := s.received .field) (p := .field) pass)
    have barred (bar : s.treatmentOf .toSupervisor f = .bar) : s.sorted f = told .field 1 :=
      (State.sorted_of_other other).trans
        ((State.treat_of_barred (s := s.received .field) (p := .field) isFieldOrder_toSupervisor bar).trans (post _ _ _))
    have bad (screen : s.treatmentOf .toSupervisor f = .screen) (out : s.siteOk .toSupervisor f = false) :
        s.sorted f = told .field 4 :=
      (State.sorted_of_other other).trans
        ((State.treat_of_outOfRange (s := s.received .field) (p := .field) isFieldOrder_toSupervisor screen out).trans (post _ _ _))
    refine ⟨fun bar => ⟨fun isOne => ?_, fun isNone => ?_⟩,
      fun screen isOne => ⟨fun stranger => ?_, fun sup all => ?_, fun sup one role => ?_⟩,
      fun screen isNone => ⟨fun within => ?_, fun out => ?_⟩, fun pass => ?_, fun bar => ?_,
      fun screen => ⟨fun within => ?_, fun out => ?_⟩,
      fun above => ⟨fun screen => ?_, fun bar => ?_, fun pass => ?_⟩⟩
    · exact unscreened .barred rfl other (State.treat_of_barred_order (s := s.received .supervisor) bar (isOrder.2 isOne))
    · exact fromSupervisor other
        ((State.treat_of_barred (s := s.received .supervisor) (p := .supervisor) (notOrder isNone) bar).trans (post _ _ _))
    · exact unscreened .notSupervisor rfl other
        ((screened screen isOne).trans (State.screenOrder_of_stranger (s := s.received .supervisor) stranger))
    · exact unscreened .broadcast rfl other
        ((screened screen isOne).trans (State.screenOrder_of_broadcast (s := s.received .supervisor) sup all))
    · refine fromSupervisor other ((screened screen isOne).trans ?_)
      rw [State.screenOrder_from_supervisor (s := s.received .supervisor) sup one,
        State.toScreen_of_no_role (s := s.received .supervisor) role]
    · exact fromSupervisor other (State.treat_of_inRange (s := s.received .supervisor) (p := .supervisor) (notOrder isNone) screen
        ((range .toField).2 within))
    · refine fromSupervisor other ((State.treat_of_outOfRange (s := s.received .supervisor) (p := .supervisor)
        (notOrder isNone) screen ?_).trans (post _ _ _))
      exact outOfRange (d := .toField) out
    · exact passed pass
    · exact barred bar
    · exact (State.sorted_of_other other).trans
        (State.treat_of_inRange (s := s.received .field) (p := .field) isFieldOrder_toSupervisor screen
          ((range .toSupervisor).2 within))
    · exact bad screen (outOfRange (d := .toSupervisor) out)
    · have out : s.siteOk .toSupervisor f = false := State.ReportsAboveN.outOfRange above good
      have arrived := noted above (bad screen out)
        (State.raisesBadField_of_outOfRange (s := s.received .field) other screen out)
      rw [already] at arrived
      exact arrived
    · rw [noted above (barred bar) (raised := false), again]
      exact State.raisesBadField_of_unscreened (s := s.received .field) (p := .field) fun screen => by
        cases bar.symm.trans screen
    · rw [noted above (passed pass) (raised := false), again]
      exact State.raisesBadField_of_unscreened (s := s.received .field) (p := .field) fun screen => by
        cases pass.symm.trans screen
  case queues =>
    have frame := s.sorted_frame f
    have policy : (s.sorted f).policy = s.policy := frame .policy (by decide)
    obtain ⟨forward, part, transmitter⟩ := State.SparesSupervisor.handOver (s := s.sorted f) (by rw [policy]; exact direct)
      ((s.received .field).raisesBadField .field f) f
    exact ⟨_, exec_fieldArrival running good, forward, part, transmitter.trans (s.sorted_supTx f)⟩

end Sys2Proof.Machine
end

section
/-! PROOFS. The speed screen (R121 to R129, R133, R134) and the door screen (R73 to R78). -/

namespace Sys2Proof.Machine

variable {s t u : State} {f : Frame}

/-! ## A notice and a drive's record -/

theorem State.post_withDrive (s : State) (d : DriveIx) (x : Drive) (kind : NoticeKind) (m : Bool) (n d0 d1 d2 d3 : Byte) :
    (s.withDrive d x).post kind m n d0 d1 d2 d3 = (s.post kind m n d0 d1 d2 d3).withDrive d x := by
  have holds : (s.withDrive d x).notices.restarting = s.notices.restarting := rfl
  unfold State.post State.deliver
  cases restarting : s.notices.restarting with
  | true => rw [if_pos (holds.trans restarting), if_pos rfl]; rfl
  | false => rw [if_neg (by rw [holds, restarting]; nofun), if_neg nofun]; rfl

theorem State.judgeSpeed_post (s : State) (kind : NoticeKind) (m : Bool) (n d0 d1 d2 d3 : Byte) (dr : Drive) (r : Int)
    (brake : Byte) : (s.post kind m n d0 d1 d2 d3).judgeSpeed dr r brake = s.judgeSpeed dr r brake := by
  unfold State.post State.deliver
  split <;> rfl

theorem State.offerForward_governor (s : State) (p : Port) (f : Frame) : (s.offerForward p f).governor = s.governor :=
  s.offerForward_frame p f .governor (by decide)

/-! ## A screened speed order -/

/-- The verdict on a speed order to a drive (R122 to R125). -/
def State.verdictOn (s : State) (d : DriveIx) (r : Int) (brake : Byte) : SpeedVerdict := s.judgeSpeed (s.drive d) r brake

/-- The record a screened speed order leaves its drive (R121 to R126, R129). -/
def State.screenedRecord (s : State) (d : DriveIx) (r : Int) (brake : Byte) : Drive :=
  { state := .following
    speed := if s.mode = .monitor then r else (s.verdictOn d r brake).speed
    credit := (s.verdictOn d r brake).credit
    screened := some s.clock.now
    stale := some s.active.gov.staleMs
    subs := (s.drive d).subs }

/-- The STALE RESUMED notice of a drive that was SUBSTITUTING or HELD, whose record was `x` (R133, R134). -/
def State.tellResumed (s : State) (d : DriveIx) (x : Drive) : State :=
  if x.state = .substituting ∨ x.state = .held then
    s.post .stale (decide (s.mode = .monitor)) (byte d.val) 2 (sHi x.speed) (sLo x.speed) (byte x.subs)
  else s

/-- The CLAMPED notice of a verdict that differs from the request (R127). -/
def State.tellClamped (s : State) (d : DriveIx) (r : Int) (brake : Byte) (w : SpeedVerdict) : State :=
  if w.speed = r ∧ w.brake = brake then s else s.postClamped d r w.speed

/-- The frame in which a screened speed order goes on (R126, R129). -/
def State.forwardedAs (s : State) (r : Int) (brake : Byte) (w : SpeedVerdict) (f : Frame) : Frame :=
  if s.mode = .monitor ∨ (w.speed = r ∧ w.brake = brake) then f else f.amend (sbe2 w.speed ++ [w.brake])

theorem State.tellResumed_frame (s : State) (d : DriveIx) (x : Drive) : s.OnlyChanges (s.tellResumed d x) [.notices] := by
  unfold State.tellResumed
  split
  · exact State.post_frame _ _ _ _ _ _ _ _
  · exact .refl _ _

theorem State.tellClamped_frame (s : State) (d : DriveIx) (r : Int) (brake : Byte) (w : SpeedVerdict) :
    s.OnlyChanges (s.tellClamped d r brake w) [.notices] := by
  unfold State.tellClamped
  split
  · exact .refl _ _
  · exact State.post_frame _ _ _ _ _ _ _ _

/-- The order resumes its drive: the record follows, and the notice gives the speed and the count it had. -/
theorem State.resumeDrive_eq (s : State) (d : DriveIx) : s.resumeDrive d =
    (s.tellResumed d (s.drive d)).withDrive d { s.drive d with state := .following, stale := some s.active.gov.staleMs } := by
  unfold State.resumeDrive State.tellResumed State.postStale
  dsimp only
  split
  · rw [State.withDrive_drive_self, State.post_withDrive]
    rfl
  · rfl

theorem State.tellResumed_withDrive (s : State) (d : DriveIx) (x y : Drive) :
    (s.withDrive d y).tellResumed d x = (s.tellResumed d x).withDrive d y := by
  unfold State.tellResumed
  split
  · exact State.post_withDrive _ _ _ _ _ _ _ _ _ _
  · rfl

theorem State.tellResumed_judgeSpeed (s : State) (d : DriveIx) (x y z : Drive) (r : Int) (brake : Byte) :
    ((s.tellResumed d x).withDrive d y).judgeSpeed z r brake = s.judgeSpeed z r brake := by
  unfold State.tellResumed
  split
  · exact State.judgeSpeed_post _ _ _ _ _ _ _ _ _ _ _
  · rfl

/-- A speed order at its screen: the record, the two notices, and the frame. -/
theorem State.screenSpeed_eq (s : State) (d : DriveIx) (r : Int) (brake : Byte) (f : Frame) : s.screenSpeed d r brake f =
    (((s.withDrive d (s.screenedRecord d r brake)).tellResumed d (s.drive d)).tellClamped d r brake
      (s.verdictOn d r brake)).offerForward .field (s.forwardedAs r brake (s.verdictOn d r brake) f) := by
  have judged : (s.resumeDrive d).judgeSpeed ((s.resumeDrive d).drive d) r brake = s.verdictOn d r brake := by
    rw [State.resumeDrive_eq, State.withDrive_drive_self, State.tellResumed_judgeSpeed]
    rfl
  have recorded : (s.resumeDrive d).withDrive d { (s.resumeDrive d).drive d with
      speed := if s.mode = .monitor then r else (s.verdictOn d r brake).speed
      credit := (s.verdictOn d r brake).credit, screened := some s.clock.now } =
        (s.withDrive d (s.screenedRecord d r brake)).tellResumed d (s.drive d) := by
    rw [State.resumeDrive_eq, State.withDrive_drive_self, State.withDrive_withDrive, State.tellResumed_withDrive]
    rfl
  unfold State.screenSpeed
  dsimp only
  rw [judged, recorded]
  unfold State.tellClamped State.forwardedAs
  by_cases same : (s.verdictOn d r brake).speed = r ∧ (s.verdictOn d r brake).brake = brake
  · rw [if_pos same, if_pos same, if_pos (.inr same)]
  · rw [if_neg same, if_neg same]
    by_cases monitor : s.mode = .monitor
    · rw [if_pos monitor, if_pos (.inl monitor)]
    · rw [if_neg monitor, if_neg (not_or.2 ⟨monitor, same⟩)]

theorem State.toScreen_speedOrder {d : DriveIx} {hi lo brake : Byte} (kind : f.kind = .speedOrder)
    (payload : f.payload = [hi, lo, brake]) (role : s.active.roleOf f.dest = some (.drive d)) :
    s.toScreen f = s.screenSpeed d (signed2 hi lo) brake f := by
  simp [State.toScreen, kind, payload, role]

theorem State.forwardedAs_header (s : State) (r : Int) (brake : Byte) (w : SpeedVerdict) (f : Frame) :
    (s.forwardedAs r brake w f).cls = f.cls ∧ (s.forwardedAs r brake w f).dest = f.dest ∧
      (s.forwardedAs r brake w f).src = f.src := by
  unfold State.forwardedAs
  split <;> exact ⟨rfl, rfl, rfl⟩

theorem Governor.forcesHold_iff {g : Governor} : g.forcesHold = true ↔ g.ceilingF = 0 ∧ g.ceilingV = 0 := by
  simp [Governor.forcesHold]

/-- Settles O26: the screen's record, notices and frame, offered to the forward queue. -/
theorem speedOrderIsScreened : Obligations.SpeedOrderIsScreened := by
  intro f hi lo brake d s running good kind payload other one screen sup role a e credit r out forced held monitor record frame
    u1 u2 u3
  have elapsed : elapsedFor s.clock.now (s.drive d).screened = e := by
    simp only [e]
    cases (s.drive d).screened <;> rfl
  have isCredit : creditAfter a (s.drive d).credit (elapsedFor s.clock.now (s.drive d).screened) = credit := by rw [elapsed]; rfl
  have isHeld : (if s.governor.forcesHold then brakeHold else brake) = held :=
    ite_congr (propext Governor.forcesHold_iff) (fun _ => rfl) fun _ => rfl
  have verdict : (s.received .supervisor).verdictOn d r brake = { speed := out.1, brake := held, credit := out.2 } := by
    rw [← isHeld]
    simp only [out]
    rw [← isCredit]
    rfl
  have isRecord : (s.received .supervisor).screenedRecord d r brake = record := by
    rw [State.screenedRecord, verdict]
    rfl
  have isFrame : (s.received .supervisor).forwardedAs r brake { speed := out.1, brake := held, credit := out.2 } f = frame := rfl
  have resumed : ((s.received .supervisor).withDrive d record).tellResumed d (s.drive d) = u2 := rfl
  have told := ((s.received .supervisor).withDrive d record).tellResumed_frame d (s.drive d)
  rw [resumed] at told
  have mode : u2.mode = s.mode := told .mode (by decide)
  have governor : u2.governor = u1.governor := told .governor (by decide)
  have force : u2.governor.forcesHold = true ↔ forced := by
    rw [governor]
    exact Governor.forcesHold_iff
  have clamped : u2.tellClamped d r brake { speed := out.1, brake := held, credit := out.2 } = u3 := by
    have bit : (if u2.governor.forcesHold then 8 else 0) = if forced then 8 else 0 :=
      ite_congr (propext force) (fun _ => rfl) fun _ => rfl
    unfold State.tellClamped State.postClamped
    rw [mode, bit]
  have told3 := told.trans (u2.tellClamped_frame d r brake { speed := out.1, brake := held, credit := out.2 })
  rw [clamped] at told3
  have arrived : exec (.frameArrival .supervisor f.bytes false) s = .next (u3.offerForward .field frame).close := by
    have order : f.kind.screened = true := by rw [kind]; rfl
    have screens := (s.received .supervisor).screenSpeed_eq d r brake f
    rw [isRecord, verdict, isFrame] at screens
    rw [← clamped, ← resumed, exec_frameArrival_order running good order other one screen sup,
      State.toScreen_speedOrder (s := s.received .supervisor) kind payload role]
    exact congrArg (fun t => Host.Outcome.next (State.close t)) screens
  have governor3 : (u3.offerForward .field frame).governor = u1.governor :=
    (u3.offerForward_governor .field frame).trans (told3 .governor (by decide))
  have path : u3.path = (s.received .supervisor).path := told3 .path (by decide)
  have waits : u3.path.fldForward = s.path.fldForward := by rw [path]; rfl
  have recorded : s.OnlyChanges u1 [.path, .governor] :=
    ((s.received_frame .supervisor).mono (by decide)).trans
      ((Move.withDrive (q := true) (bs := [.governor]) _ d record (by decide)).onlyChanges.mono (by decide))
  refine ⟨_, arrived, ?_, fun x differs => ?_, ?_, ?_, fun room => ?_, fun full => ⟨?_, ?_⟩⟩
  · rw [State.drive_congr governor3, State.withDrive_drive_self]
  · rw [State.drive_congr governor3, State.withDrive_drive_of_ne _ differs]
    rfl
  · rw [governor3]
    rfl
  · exact ((recorded.mono (by decide)).trans (told3.mono (by decide))).trans
      ((u3.offerForward_frame .field frame).mono (by decide))
  · rw [State.offerForward_field_of_room (by rw [waits]; exact room), waits]
  · obtain ⟨cls, dest, src⟩ := (s.received .supervisor).forwardedAs_header r brake
      { speed := out.1, brake := held, credit := out.2 } f
    rw [isFrame] at cls dest src
    rw [State.offerForward_field_of_full (by rw [waits]; exact full), cls, dest, src]
  · rw [State.offerForward_field_of_full (by rw [waits]; exact full), State.post_path, waits]

/-! ## A door order at its screen -/

theorem State.toScreen_doorOrder {cabin action kind : Byte} (isDoor : f.kind = .doorOrder)
    (payload : f.payload = [cabin, action, kind]) :
    s.toScreen f = s.screenDoor cabin.toNat (action == 0) (if kind = 0 then .standard else .assist) f := by
  simp [State.toScreen, isDoor, payload]

theorem State.refuseOrder_doorOrder {cabin action kind : Byte} (isDoor : f.kind = .doorOrder)
    (payload : f.payload = [cabin, action, kind]) (r : Reason) : s.refuseOrder r f =
    if s.mode = .monitor then (s.post .refused true cabin (byte r.code) f.cls f.dest f.src).offerForward .field f
    else s.post .refused false cabin (byte r.code) f.cls f.dest f.src := by
  simp [State.refuseOrder, State.postRefused, Frame.refusedSubject, isDoor, payload]

section
variable {c : Nat} {k : GrantKind} {berth : Berth} {z : BerthEntry}

/-- Checks 6 to 11 with the berth's zone in hand (R74). -/
theorem State.judgeReleaseAt_eq (zone : s.active.berth berth = some z) : s.judgeReleaseAt c k berth =
    if ¬ (k = .standard → arcAt z s.envelope.count s.lastFix.position c < z.length - z.margin) then .refused .pastWithdraw
    else if ¬ (s.board.grants.get berth = none ∧ s.holdsGrant c = false) then .refused .berthBusy
    else if ¬ (if k = .standard then s.wind.level ≠ .park else s.wind.level.code ≤ 1) then .refused .level
    else if ¬ (s.boardingClosed = false ∨ s.listed c = true) then .refused .sweepClosed
    else if s.lastFix.speed < 0 then .refused .reverse
    else if ¬ s.lastFix.speed.natAbs ≤ (if k = .standard then z.creep else s.active.gov.tolerance) then
      .refused (if k = .standard then .tooFast else .notStopped)
    else .granted berth := by
  have short : (k = .standard ∧ s.shortOfWithdraw berth c = false) ↔
      ¬ (k = .standard → arcAt z s.envelope.count s.lastFix.position c < z.length - z.margin) := by
    rw [Classical.not_imp]
    exact and_congr_right fun _ => by simp [State.shortOfWithdraw, State.arcOf, zone]
  have free : ((s.board.grants.get berth).isSome = true ∨ s.holdsGrant c = true) ↔
      ¬ (s.board.grants.get berth = none ∧ s.holdsGrant c = false) := by
    rw [not_and_or, Bool.not_eq_false, Option.isSome_iff_ne_none]
  have calm : s.levelAllows k = false ↔ ¬ (if k = .standard then s.wind.level ≠ .park else s.wind.level.code ≤ 1) := by
    cases k <;> simp [State.levelAllows]
  have welcome : (s.boardingClosed = true ∧ s.listed c = false) ↔ ¬ (s.boardingClosed = false ∨ s.listed c = true) := by
    rw [not_or, Bool.not_eq_false, Bool.not_eq_true]
  have slow : s.releaseSpeed berth k < s.lastFix.speed.natAbs ↔
      ¬ s.lastFix.speed.natAbs ≤ (if k = .standard then z.creep else s.active.gov.tolerance) := by
    cases k <;> simp [State.releaseSpeed, zone]
  unfold State.judgeReleaseAt
  refine ite_congr (propext short) (fun _ => rfl) fun _ => ite_congr (propext free) (fun _ => rfl) fun _ =>
    ite_congr (propext calm) (fun _ => rfl) fun _ => ite_congr (propext welcome) (fun _ => rfl) fun _ =>
    ite_congr rfl (fun _ => rfl) fun _ => ite_congr (propext slow) (fun _ => ?_) fun _ => rfl
  cases k <;> rfl

theorem State.judgeRelease_latched (latched : s.governor.latch = true) : s.judgeRelease c k = .refused .stopLatched :=
  if_pos latched

section
variable (unlatched : s.governor.latch = false)
include unlatched

theorem State.judgeRelease_unknown (lost : s.rim.known = false) : s.judgeRelease c k = .refused .positionUnknown := by
  simp [State.judgeRelease, unlatched, lost]

variable (known : s.rim.known = true)
include known

theorem State.judgeRelease_notInService (out : s.present c = false ∨ (s.cabin c).inService = false) :
    s.judgeRelease c k = .refused .notInService := by
  simp [State.judgeRelease, unlatched, known, out]

variable (present : s.present c = true) (serves : (s.cabin c).inService = true)
include present serves

theorem State.judgeRelease_notInZone (away : s.reported c = none) : s.judgeRelease c k = .refused .notInZone := by
  simp [State.judgeRelease, unlatched, known, present, serves, away]

theorem State.judgeRelease_inZone (stands : s.reported c = some berth) : s.judgeRelease c k = s.judgeReleaseAt c k berth := by
  simp [State.judgeRelease, unlatched, known, present, serves, stands]

end

theorem State.screenDoor_refused {r : Reason} (h : s.judgeRelease c k = .refused r) :
    s.screenDoor c true k f = s.refuseOrder r f := by
  simp [State.screenDoor, h]

theorem State.screenDoor_granted (h : s.judgeRelease c k = .granted berth) :
    s.screenDoor c true k f = (s.recordGrant berth c k).offerForward .field f := by
  simp [State.screenDoor, h]

end

/-- What a granted release leaves (R76). -/
theorem State.recordGrant_spec (s : State) (berth : Berth) (c : Nat) (k : GrantKind) (f : Frame) :
    let u := (s.recordGrant berth c k).offerForward .field f
    u.board.grants = s.board.grants.set berth (some { cabin := c, kind := k, state := .granted, since := s.stamp }) ∧
      u.board.gates = s.board.gates ∧ u.ConditionsAgree ∧ u.CeilingsAgree ∧
      s.OnlyChanges u [.path, .board, .governor, .notices] := by
  intro u
  have offered := (s.recordGrant berth c k).offerForward_frame .field f
  have inputs : (s.recordGrant berth c k).SameInputs u := .of_frame (offered.mono (by decide))
  have board : u.board = (s.recordGrant berth c k).board := offered .board (by decide)
  refine ⟨inputs.grants.trans rfl, ?_, inputs.conditionsAgree (State.recomputeBoarding_conditions _),
    inputs.ceilingsAgree (State.recomputeBoarding_ceilings _), ?_⟩
  · rw [board]
    rfl
  · exact ((Move.recordGrant s berth c k).onlyChanges.mono (by decide)).trans (offered.mono (by decide))

/-- Settles O27: the eleven checks in their order, the first at the Sorter and the others at the door screen. -/
theorem releaseRecordsAGrant : Obligations.ReleaseRecordsAGrant := by
  intro f cabin action kind s running good isDoor payload other one screen sup c k r refused
  have order : f.kind.screened = true := by rw [isDoor]; rfl
  have arrives {t : State} (made : r.screenDoor c (action == 0) k f = t) :
      exec (.frameArrival .supervisor f.bytes false) s = .next t.close := by
    rw [exec_frameArrival_order running good order other one screen sup,
      State.toScreen_doorOrder (s := s.received .supervisor) isDoor payload]
    exact congrArg (fun t => Host.Outcome.next (State.close t)) made
  have released {t : State} (release : action = 0) (made : r.screenDoor c true k f = t) :
      exec (.frameArrival .supervisor f.bytes false) s = .next t.close := arrives (by rw [release]; exact made)
  have refuses (release : action = 0) (reason : Reason) {code : Byte} (coded : byte reason.code = code)
      (h : r.judgeRelease c k = .refused reason) : refused code := by
    rw [← coded]
    exact released release ((State.screenDoor_refused h).trans (State.refuseOrder_doorOrder isDoor payload reason))
  have standard : k = .standard ↔ kind = 0 := by
    simp only [k]
    split
    · next zero => exact ⟨fun _ => zero, fun _ => rfl⟩
    · next nonzero => exact ⟨nofun, fun zero => absurd zero nonzero⟩
  refine ⟨fun lock => arrives ?_, fun release latched => ?_, fun release unlatched lost => ?_, fun release unlatched known =>
    ⟨fun out => ?_, fun present serves => ⟨fun away => ?_, fun berth z stands zone => ?_⟩⟩⟩
  · rw [lock]
    rfl
  · exact refuses release .stopLatched rfl (State.judgeRelease_latched (s := r) latched)
  · exact refuses release .positionUnknown rfl (State.judgeRelease_unknown (s := r) unlatched lost)
  · exact refuses release .notInService rfl (State.judgeRelease_notInService (s := r) unlatched known out)
  · exact refuses release .notInZone rfl (State.judgeRelease_notInZone (s := r) unlatched known present serves away)
  · have judged := (State.judgeRelease_inZone (s := r) (k := k) unlatched known present serves stands).trans
      (State.judgeReleaseAt_eq (s := r) zone)
    simp only [standard] at judged
    intro short free calm welcome v slow
    have past6 (early : short) := judged.trans (if_neg (not_not.2 early))
    have past7 (early : short) (unheld : free) := (past6 early).trans (if_neg (not_not.2 unheld))
    have past8 (early : short) (unheld : free) (still : calm) := (past7 early unheld).trans (if_neg (not_not.2 still))
    have past9 (early : short) (unheld : free) (still : calm) (invited : welcome) :=
      (past8 early unheld still).trans (if_neg (not_not.2 invited))
    have past10 (early : short) (unheld : free) (still : calm) (invited : welcome) (forth : 0 ≤ v) :=
      (past9 early unheld still invited).trans (if_neg (Int.not_lt.2 forth))
    refine ⟨fun late => refuses release .pastWithdraw rfl (judged.trans (if_pos late)),
      fun early busy => refuses release .berthBusy rfl ((past6 early).trans (if_pos busy)),
      fun early unheld windy => refuses release .level rfl ((past7 early unheld).trans (if_pos windy)),
      fun early unheld still closed => refuses release .sweepClosed rfl ((past8 early unheld still).trans (if_pos closed)),
      fun early unheld still invited back =>
        refuses release .reverse rfl ((past9 early unheld still invited).trans (if_pos back)),
      fun early unheld still invited forth fast => ?_, fun early unheld still invited forth steady => ?_⟩
    · exact refuses release (if kind = 0 then .tooFast else .notStopped) (by split <;> rfl)
        ((past10 early unheld still invited forth).trans (if_pos fast))
    · have granted := (past10 early unheld still invited forth).trans (if_neg (not_not.2 steady))
      obtain ⟨grants, gates, conditions, ⟨forward, reverse, -⟩, frame⟩ := r.recordGrant_spec berth c k f
      refine ⟨_, released release (State.screenDoor_granted granted), grants, gates, conditions, forward, reverse,
        ((s.received_frame .supervisor).mono (by decide)).trans frame, fun room => ?_, fun full => ?_⟩
      · rw [State.offerForward_field_of_room (s := r.recordGrant berth c k) room]
        rfl
      · rw [State.offerForward_field_of_full (s := r.recordGrant berth c k) full, State.post_path]
        rfl

end Sys2Proof.Machine
end

section
/-! PROOFS. The reports that are noted (R34): what each hands to its consumer; the reports of a station (R57, R58, R62, R72) and the
samples of an anemometer (R95, R100). -/

namespace Sys2Proof.Machine

variable {s t u : State} {f : Frame}

/-! ## The hand-over -/

/-- What noting makes of a frame that the Sorter has dealt with, the event closes. -/
theorem exec_noted (running : s.phase = .running) (good : f.Good) (handed : ∀ told, (s.sorted f).handOver told f = t) :
    exec (.frameArrival .field f.bytes false) s = .next t.close := by
  rw [exec_fieldArrival running good, handed]

section
variable (told : Bool) {status : Byte}

theorem State.handOver_rim {p2 p1 p0 v1 v0 : Byte} (kind : f.kind = .rimReport) (payload : f.payload = [p2, p1, p0, v1, v0, status])
    (role : s.active.roleOf f.src = some .encoder) : s.handOver told f =
    if status = 0 then (s.takeGoodRim (beNat [p2, p1, p0]) (signed2 v1 v0)).afterGrants s else s.losePosition := by
  simp only [State.handOver, kind, role, payload]

theorem State.handOver_wind {w1 w0 d1 d0 : Byte} {c : ChannelIx} (kind : f.kind = .windReport)
    (payload : f.payload = [w1, w0, d1, d0, status]) (role : s.active.roleOf f.src = some (.anemometer c)) :
    s.handOver told f = if status = 0 then s.takeSample c (beNat [w1, w0]) (beNat [d1, d0]) else s := by
  simp only [State.handOver, kind, role, payload]

theorem State.handOver_door {cabin door : Byte} (kind : f.kind = .doorReport) (payload : f.payload = [cabin, door])
    (role : s.active.roleOf f.src = some .hub) (present : s.present cabin.toNat = true) :
    s.handOver told f = (s.takeDoor cabin.toNat (DoorState.ofCode door.toNat)).afterGrants s := by
  simp only [State.handOver, kind, role, payload, present, if_true]

theorem State.handOver_count {cabin boarded alighted : Byte} {berth : Berth} (kind : f.kind = .countReport)
    (payload : f.payload = [cabin, boarded, alighted]) (role : s.active.roleOf f.src = some (.station berth))
    (present : s.present cabin.toNat = true) :
    s.handOver told f = s.takeCount berth cabin.toNat boarded.toNat alighted.toNat f := by
  simp only [State.handOver, kind, role, payload, present, if_true]

theorem State.handOver_gates {entry exit : Byte} {berth : Berth} (kind : f.kind = .gateReport) (payload : f.payload = [entry, exit])
    (role : s.active.roleOf f.src = some (.station berth)) :
    s.handOver told f = s.takeGates berth (GateState.ofCode entry.toNat) (GateState.ofCode exit.toNat) := by
  simp only [State.handOver, kind, role, payload]

end

/-! ## Samples -/

/-- The notices of a post depend on the notices held, the bank in force and the clock. -/
theorem State.post_notices_congr (notices : t.notices = s.notices) (active : t.active = s.active) (clock : t.clock = s.clock)
    (kind : NoticeKind) (m : Bool) (n d0 d1 d2 d3 : Byte) :
    (t.post kind m n d0 d1 d2 d3).notices = (s.post kind m n d0 d1 d2 d3).notices := by
  unfold State.post State.deliver State.stamp
  rw [notices, active, clock]
  split <;> rfl

theorem Channel.woken_of_stale {x : Channel} (h : x.state = .stale) :
    x.woken = { x with state := .warming, stale := 0, warm := 0 } :=
  if_pos h

theorem Channel.woken_of_other {x : Channel} (h : x.state ≠ .stale) : x.woken = x := if_neg h

theorem State.liveChannels_withChannel {c : ChannelIx} {x : Channel} (h : x.state = .live ↔ (s.wind.channels[c]).state = .live) :
    (s.withChannel c x).liveChannels = s.liveChannels := by
  unfold State.liveChannels State.withChannel
  congr 1
  funext e
  by_cases same : c = e
  · subst same; simp [h]
  · have : c.val ≠ e.val := fun h => same (Fin.ext h)
    simp [this]

theorem State.withChannel_frame (s : State) (c : ChannelIx) (x : Channel) : s.OnlyChanges (s.withChannel c x) [.wind] :=
  (Move.withChannel (q := true) (bs := [.wind]) s c x (by decide)).onlyChanges

section
variable {c : ChannelIx} (speed direction : Nat)

theorem State.takeSample_notices_of_awake (awake : (s.wind.channels[c]).state ≠ .stale) :
    (s.takeSample c speed direction).notices = s.notices := by
  unfold State.takeSample State.setChannel
  dsimp only
  rw [Channel.woken_of_other awake]
  split
  · rfl
  · rw [if_pos rfl]
    rfl

theorem State.takeSample_notices_of_stale (stale : (s.wind.channels[c]).state = .stale) :
    (s.takeSample c speed direction).notices = (s.post .channel false (byte c.val) 3 1 ((s.wind.channels[c]).node.getD 255)
      (byte s.liveChannels.length)).notices := by
  have changes : (s.wind.channels[c]).woken.state ≠ (s.wind.channels[c]).state := by
    rw [Channel.woken_of_stale stale, stale]
    nofun
  have live : (s.withChannel c (s.wind.channels[c]).woken).liveChannels = s.liveChannels :=
    State.liveChannels_withChannel (Channel.woken_live _)
  have record : ((s.withChannel c (s.wind.channels[c]).woken).wind.channels[c]) = (s.wind.channels[c]).woken :=
    Vector.getElem_set_self _
  have told : (s.setChannel c (s.wind.channels[c]).woken).notices = (s.post .channel false (byte c.val) 3 1
      ((s.wind.channels[c]).node.getD 255) (byte s.liveChannels.length)).notices := by
    unfold State.setChannel State.postChannel
    dsimp only
    rw [if_neg changes, live, record, stale, Channel.woken_of_stale stale]
    exact State.post_notices_congr (s := s) (t := s.withChannel c _) rfl rfl rfl .channel false (byte c.val) 3 1 _ _
  rw [← told]
  unfold State.takeSample
  dsimp only
  rw [if_neg (by rw [stale]; nofun), if_pos stale]
  rfl

/-- Only the channels' records, their live count and the effective wind follow a sample. -/
theorem State.takeSample_level (s : State) (c : ChannelIx) : (s.takeSample c speed direction).wind.level = s.wind.level ∧
    (s.takeSample c speed direction).wind.countdown = s.wind.countdown ∧
    (s.takeSample c speed direction).wind.floor = s.wind.floor := by
  unfold State.takeSample
  dsimp only
  split
  · exact ⟨rfl, rfl, rfl⟩
  · split
    · simp only [State.recomputeWind, State.withWind_wind, State.withChannel, State.setChannel_wind, and_self]
    · simp only [State.withWind_wind, State.withChannel, State.setChannel_wind, and_self]

end

/-- A woken channel that takes a sample. -/
theorem Channel.woken_sampled (x : Channel) (speed direction : Nat) : x.woken.sampled speed direction = { x with
    state := if x.state = .stale then .warming else x.state
    stale := if x.state = .stale then 0 else x.stale
    warm := if x.state = .stale then 0 else x.warm
    direction := direction
    bucketMax := max x.bucketMax (min speed 700)
    bucketSum := if x.bucketCount < 255 then x.bucketSum + min speed 700 else x.bucketSum
    bucketCount := if x.bucketCount < 255 then x.bucketCount + 1 else x.bucketCount } := by
  unfold Channel.woken Channel.sampled maxWind
  dsimp only
  split <;> split <;> simp [*]

/-- Settles O34: a GOOD report is a sample of its channel, and another leaves what the Sorter made of the frame. -/
theorem windSampleEntersTheBucket : Obligations.WindSampleEntersTheBucket := by
  intro f w1 w0 d1 d0 status c s running good kind payload role assigned x v
  have frame := s.sorted_frame f
  have wind : (s.sorted f).wind = s.wind := frame .wind (by decide)
  have active : (s.sorted f).active = s.active := s.sorted_active f
  have handed (told : Bool) := State.handOver_wind (s := s.sorted f) told kind payload (by rw [active]; exact role)
  have arrived := exec_noted running good handed
  have channel : (s.sorted f).wind.channels[c] = x := by rw [wind]
  have channels := (s.sorted f).takeSample_channels c (beNat [w1, w0]) (beNat [d1, d0])
  rw [channel, if_neg assigned, Channel.woken_sampled] at channels
  have sampled := (Move.takeSample (q := true) (s.sorted f) c (beNat [w1, w0]) (beNat [d1, d0])).onlyChanges
  by_cases isGood : status = 0
  · rw [if_pos isGood] at arrived
    obtain ⟨level, countdown, floor⟩ := State.takeSample_level (beNat [w1, w0]) (beNat [d1, d0]) (s.sorted f) c
    refine ⟨_, _, arrived, rfl, ?_, sampled, fun fault => absurd isGood fault, fun _ awake => ?_, fun _ stale => ?_, ?_, ?_, ?_,
      fun e other => ?_, fun fault => absurd isGood fault, fun _ => ?_⟩
    · exact ((frame.mono (by decide)).trans (sampled.mono (by decide))).trans ((State.close_frame _).mono (by decide))
    · exact State.takeSample_notices_of_awake _ _ (by rw [channel]; exact awake)
    · have live : (s.sorted f).liveChannels = s.liveChannels := by rw [State.liveChannels, wind]; rfl
      rw [State.takeSample_notices_of_stale _ _ (by rw [channel]; exact stale), channel, live]
    · rw [State.close_wind, level, wind]
    · rw [State.close_wind, countdown, wind]
    · rw [State.close_wind, floor, wind]
    · rw [State.close_wind, channels, wind]
      exact Vector.getElem_set_ne _ _ fun same => other (Fin.ext same.symm)
    · rw [State.close_wind, channels]
      exact Vector.getElem_set_self _
  · rw [if_neg isGood] at arrived
    refine ⟨_, _, arrived, rfl, ?_, .refl _ _, fun _ => rfl, fun zero => absurd zero isGood, fun zero => absurd zero isGood,
      ?_, ?_, ?_, fun e other => ?_, fun _ => ?_, fun zero => absurd zero isGood⟩
    · exact (frame.mono (by decide)).trans ((State.close_frame _).mono (by decide))
    all_goals rw [State.close_wind, wind]

/-! ## Counts -/

/-- A count's new occupancy and confidence, by the total it comes to (R57, R61). -/
theorem Cabin.counted_spec (k : Cabin) (boarded alighted : Nat) :
    let total : Int := k.occupancy + min boarded 63 - min alighted 63
    let u := k.counted boarded alighted
    (total < 0 → u.occupancy = 0 ∧ u.uncertain = true) ∧ (63 < total → u.occupancy = 63 ∧ u.uncertain = true) ∧
      (0 ≤ total → total ≤ 63 → u.occupancy = total ∧ u.uncertain = k.uncertain) ∧
      u = { k with occupancy := u.occupancy, uncertain := u.uncertain, assist := if u.occupancy = 0 then false else k.assist } := by
  intro total u
  have parts : u =
      if k.occupancy + min boarded 63 < min alighted 63 then { k with occupancy := 0, uncertain := true, assist := false }
      else if 63 < k.occupancy + min boarded 63 - min alighted 63 then { k with occupancy := 63, uncertain := true }
      else { k with occupancy := k.occupancy + min boarded 63 - min alighted 63, assist :=
        if k.occupancy + min boarded 63 - min alighted 63 = 0 then false else k.assist } := by
    simp only [u, Cabin.counted, maxOccupancy]
    by_cases low : k.occupancy + min boarded 63 < min alighted 63
    · simp only [low, if_true]
    · by_cases high : 63 < k.occupancy + min boarded 63 - min alighted 63
      · simp only [low, high, if_true, if_false]
        rfl
      · simp only [low, high, if_false]
        split
        · next empty => rw [empty]
        · rfl
  rw [parts]
  split
  · next low => exact ⟨fun _ => ⟨rfl, rfl⟩, fun most => by omega, fun least => by omega, rfl⟩
  · split
    · next high => exact ⟨fun least => by omega, fun _ => ⟨rfl, rfl⟩, fun _ most => by omega, rfl⟩
    · exact ⟨fun least => by omega, fun most => by omega, fun _ _ => ⟨by dsimp only; omega, rfl⟩, rfl⟩

/-- A CABIN notice for a record that has just been replaced. -/
theorem State.postCabin_withCabin {c : Nat} (low : 1 ≤ c) (high : c ≤ 64) (k : Cabin) (e : CabinCause) :
    (s.withCabin c k).postCabin c e = (s.withCabin c k).post .cabin false (byte c) e.code (byte k.door.code) (byte k.occupancy)
      (byte ((if k.uncertain then 1 else 0) + (if k.inService then 0 else 2) + (if k.assist then 4 else 0) +
        if s.holdsGrant c then 8 else 0)) := by
  have holds : (s.withCabin c k).holdsGrant c = s.holdsGrant c := by
    unfold State.holdsGrant State.grantOf
    rw [State.withCabin_board]
  rw [State.postCabin, State.cabinBits, State.withCabin_cabin_self low high, holds]

/-- The register's part of a COUNT REPORT: the record, and the CABIN notice where it is new (R57, R67). -/
def State.counting (s : State) (c boarded alighted : Nat) : State :=
  let k := (s.cabin c).counted boarded alighted
  if k.occupancy = (s.cabin c).occupancy ∧ k.uncertain = (s.cabin c).uncertain then s.withCabin c k
  else (s.withCabin c k).postCabin c .count

theorem State.counting_frame (s : State) (c boarded alighted : Nat) :
    s.OnlyChanges (s.counting c boarded alighted) [.cabins, .notices] := by
  have counted := (s.withCabin_frame c ((s.cabin c).counted boarded alighted)).mono (cs := [.cabins, .notices]) (by decide)
  unfold State.counting
  dsimp only
  split
  · exact counted
  · exact counted.trans ((State.postCabin_frame _ c .count).mono (by decide))

theorem State.counting_cabins (s : State) (c boarded alighted : Nat) : (s.counting c boarded alighted).cabins =
    (s.withCabin c ((s.cabin c).counted boarded alighted)).cabins := by
  unfold State.counting
  dsimp only
  split
  · rfl
  · exact State.postCabin_frame _ c .count .cabins (by decide)

section
variable {berth : Berth} {c boarded alighted : Nat}

/-- A report of a cabin without the berth's grant raises COUNT_UNGRANTED (R58). -/
theorem State.takeCount_of_ungranted (h : ¬ ∃ g, s.board.grants.get berth = some g ∧ g.cabin = c) (f : Frame) :
    s.takeCount berth c boarded alighted f = (s.counting c boarded alighted).postRefused .countUngranted false f := by
  refine if_neg fun granted => h ?_
  obtain ⟨g, held, cabin⟩ := Option.any_eq_true _ _ |>.1 granted
  exact ⟨g, held, of_decide_eq_true cabin⟩

/-- A report of the cabin of the berth's grant closes the entry gate at the load limit (R62). -/
theorem State.takeCount_of_granted (h : ∃ g, s.board.grants.get berth = some g ∧ g.cabin = c) (f : Frame) :
    s.takeCount berth c boarded alighted f =
      if s.loadLimit ≤ ((s.cabin c).counted boarded alighted).occupancy then (s.counting c boarded alighted).closeEntry berth
      else s.counting c boarded alighted := by
  have frame := s.counting_frame c boarded alighted
  have limit : (s.counting c boarded alighted).loadLimit = s.loadLimit := by
    unfold State.loadLimit
    rw [State.active_congr (frame .policy (by decide)), show (s.counting c boarded alighted).envelope = s.envelope from
      frame .envelope (by decide), show (s.counting c boarded alighted).wind = s.wind from frame .wind (by decide)]
  obtain ⟨g, held, cabin⟩ := h
  rw [← limit]
  exact if_pos (by rw [held]; exact decide_eq_true cabin)

end

/-- An order that is not built, in MONITOR mode or for a role without a node, leaves the state. -/
theorem State.originateOrder_of_monitor {key : OriginKey} {role : Role} {cls : Byte} {payload : List Byte}
    (monitor : s.mode = .monitor) : s.originateOrder key role cls payload = s := if_pos monitor

/-- An order that is built touches the origin queue and the sequence number. -/
theorem State.originateOrder_eq (s : State) (key : OriginKey) (role : Role) (cls : Byte) (payload : List Byte) :
    s.originateOrder key role cls payload = s.withPath { s.path with
      origin := (s.originateOrder key role cls payload).path.origin
      fieldSeq := (s.originateOrder key role cls payload).path.fieldSeq } := by
  unfold State.originateOrder
  split
  · rfl
  · split <;> rfl

theorem State.sorted_origin (s : State) (f : Frame) : (s.sorted f).path.origin = s.path.origin := by
  have offered (u : State) : (u.offerForward .supervisor f).path.origin = u.path.origin := by
    unfold State.offerForward
    dsimp only
    split
    · rfl
    · rw [State.postCongestion, State.post_path]
  rcases s.sorted_cases f with sorted | ⟨reason, sorted⟩
  · rw [sorted, offered]
    rfl
  · rw [sorted, State.postRefused, State.post_path]
    rfl

theorem Frame.refusedSubject_countReport {cabin boarded alighted : Byte} (kind : f.kind = .countReport)
    (payload : f.payload = [cabin, boarded, alighted]) : f.refusedSubject = cabin := by
  rw [Frame.refusedSubject, kind, payload]
  rfl

theorem GateState.ofCode_eq (x : Byte) : GateState.ofCode x.toNat = if x = 0 then .opened else .closed := by
  by_cases zero : x = 0
  · rw [if_pos zero, zero]
    rfl
  · rw [if_neg zero]
    unfold GateState.ofCode
    split
    · next isZero => exact absurd (BitVec.eq_of_toNat_eq isZero) zero
    · rfl

/-- Settles O33: the record, the notice and the gate's close of a COUNT REPORT, and the picture of a GATE REPORT. -/
theorem countReportIsApplied : Obligations.CountReportIsApplied := by
  intro f berth s running good role
  have frame := s.sorted_frame f
  have active : (s.sorted f).active = s.active := s.sorted_active f
  have envelope : (s.sorted f).envelope = s.envelope := frame .envelope (by decide)
  have cabins : (s.sorted f).cabins = s.cabins := frame .cabins (by decide)
  have board : (s.sorted f).board = s.board := frame .board (by decide)
  have wind : (s.sorted f).wind = s.wind := frame .wind (by decide)
  have mode : (s.sorted f).mode = s.mode := frame .mode (by decide)
  have origin := s.sorted_origin f
  refine ⟨fun cabin boarded alighted kind payload present count => ?count, fun entry exit kind payload => ?gate⟩
  case gate =>
    intro picture t
    have pictured : { entry := GateState.ofCode entry.toNat, exit := GateState.ofCode exit.toNat } = picture := by
      rw [GateState.ofCode_eq, GateState.ofCode_eq]
    have taken (told : Bool) : (s.sorted f).handOver told f = t := by
      rw [State.handOver_gates told kind payload (by rw [active]; exact role), State.takeGates, pictured, board]
    have set : t.close.board = { s.board with gates := s.board.gates.set berth picture } := t.close_board
    have boarded : (s.sorted f).OnlyChanges t [.board] :=
      (Move.withBoard (q := false) (bs := [.board]) _ _ (by decide) nofun).onlyChanges
    exact ⟨exec_noted running good taken, set,
      ((frame.mono (by decide)).trans (boarded.mono (by decide))).trans (t.close_frame.mono (by decide))⟩
  case count =>
    intro c total granted limit
    obtain ⟨low, within⟩ := State.present_iff.1 present
    have high : c ≤ 64 := within.trans count
    have cabin_eq : (s.sorted f).cabin c = s.cabin c := State.cabin_congr cabins c
    have taken (told : Bool) := State.handOver_count (s := s.sorted f) told kind payload (by rw [active]; exact role)
      (by rw [State.present_iff, envelope]; exact ⟨low, within⟩)
    have arrived := exec_noted running good taken
    have limit_eq : (s.sorted f).loadLimit = limit := by
      simp only [limit, State.loadLimit, active, envelope, wind]
    have holds : (s.sorted f).holdsGrant c = s.holdsGrant c := by
      unfold State.holdsGrant State.grantOf
      rw [board]
    have told := (s.sorted f).counting_frame c boarded.toNat alighted.toNat
    have recorded := (s.sorted f).counting_cabins c boarded.toNat alighted.toNat
    have counts : (s.sorted f).counting c boarded.toNat alighted.toNat =
        let k := (s.cabin c).counted boarded.toNat alighted.toNat
        let set := (s.sorted f).withCabin c k
        if k.occupancy = (s.cabin c).occupancy ∧ k.uncertain = (s.cabin c).uncertain then set
        else set.post .cabin false cabin 1 (byte k.door.code) (byte k.occupancy)
          (byte ((if k.uncertain then 1 else 0) + (if k.inService then 0 else 2) + (if k.assist then 4 else 0) +
            if s.holdsGrant c then 8 else 0)) := by
      unfold State.counting
      dsimp only
      rw [cabin_eq, State.postCabin_withCabin low high, holds, byte_toNat]
      rfl
    have ungranted (none : ¬ granted) := State.takeCount_of_ungranted (s := s.sorted f) (boarded := boarded.toNat)
      (alighted := alighted.toNat) (c := c) (berth := berth) (by rw [board]; exact none) f
    have isGranted (one : granted) := State.takeCount_of_granted (s := s.sorted f) (boarded := boarded.toNat)
      (alighted := alighted.toNat) (c := c) (berth := berth) (by rw [board]; exact one) f
    have counted := (s.cabin c).counted_spec boarded.toNat alighted.toNat
    rw [cabin_eq] at recorded isGranted
    rw [limit_eq] at isGranted
    generalize (s.sorted f).takeCount berth c boarded.toNat alighted.toNat f = u at arrived ungranted isGranted
    generalize (s.sorted f).counting c boarded.toNat alighted.toNat = v at *
    have moved : v.OnlyChanges u [.path, .notices] := by
      by_cases one : granted
      · rw [isGranted one]
        split
        · exact (State.originateOrder_frame _ _ _ _ _).mono (by decide)
        · exact .refl _ _
      · rw [ungranted one]
        exact (State.post_frame _ _ _ _ _ _ _ _).mono (by decide)
    have cabins_eq : u.cabins = _ := (moved .cabins (by decide)).trans recorded
    have self : u.cabin c = (s.cabin c).counted boarded.toNat alighted.toNat :=
      (State.cabin_congr cabins_eq c).trans (State.withCabin_cabin_self low high _)
    have others (y : Nat) (other : y ≠ c) : u.cabin y = s.cabin y :=
      ((State.cabin_congr cabins_eq y).trans (State.withCabin_cabin_of_ne other _)).trans (State.cabin_congr cabins y)
    have path : v.path.origin = s.path.origin := (congrArg FramePath.origin (told .path (by decide))).trans origin
    have mode_eq : v.mode = s.mode := (told .mode (by decide) : v.mode = (s.sorted f).mode).trans mode
    have active_eq : v.active = s.active := (State.active_congr (told .policy (by decide))).trans active
    have envelope_eq : v.envelope = s.envelope := (told .envelope (by decide) : v.envelope = (s.sorted f).envelope).trans envelope
    have below (one : granted) (h : ((s.cabin c).counted boarded.toNat alighted.toNat).occupancy < limit ∨ s.mode = .monitor) :
        u = v := by
      rw [isGranted one]
      split
      · next full => exact State.originateOrder_of_monitor (mode_eq.trans (h.resolve_left (Nat.not_lt.2 full)))
      · rfl
    have atLimit (one : granted) (full : limit ≤ ((s.cabin c).counted boarded.toNat alighted.toNat).occupancy) :
        u = v.closeEntry berth := (isGranted one).trans (if_pos full)
    obtain ⟨negative, most, between, whole⟩ := counted
    refine ⟨u, arrived, ?_⟩
    rw [self]
    refine ⟨negative, most, between, whole, others, ?_, fun one full screen n node => ?_, fun h => ?_, ?_⟩
    · exact ((frame.mono (by decide)).trans (told.mono (by decide))).trans (moved.mono (by decide))
    · obtain ⟨seq, mem⟩ := State.originateOrder_mem (s := v) (key := .gateClose berth) (cls := codeGateOrder)
        (payload := [0, 1]) (mode_eq.trans screen) ((congrArg (Bank.nodeOf · (.station berth)) active_eq).trans node)
      rw [envelope_eq] at mem
      rw [atLimit one full]
      exact ⟨seq, mem⟩
    · by_cases one : granted
      · rw [below one (h.resolve_left (not_not.2 one)), path]
      · rw [ungranted one, State.postRefused, State.post_path, path]
    · intro k set told
      have isTold : told = v := counts.symm
      rw [isTold]
      refine ⟨fun none => ?_, below, fun one full screen => ?_⟩
      · rw [ungranted none, State.postRefused, Frame.refusedSubject_countReport kind payload]
        rfl
      · rw [atLimit one full]
        exact v.originateOrder_eq _ _ _ _

end Sys2Proof.Machine
end

section
/-! PROOFS. The zone events of a rim report (R41 to R48): which are raised for each cabin, and in what order. -/

namespace Sys2Proof.Machine

variable {s t u : State} {f : Frame}

/-! ## Membership -/

theorem inZone_iff {z : Option BerthEntry} {n p c : Nat} :
    inZone z n p c = true ↔ ∃ y, z = some y ∧ arcAt y n p c ≤ y.length := by
  rw [inZone, Option.any_eq_true]
  exact exists_congr fun y => and_congr_right fun _ => decide_eq_true_iff

theorem Bank.membership_some {k : Bank} {n p c : Nat} {berth : Berth} (h : k.membership n p c = some berth) :
    ∃ z, k.berth berth = some z ∧ arcAt z n p c ≤ z.length := by
  unfold Bank.membership at h
  split at h
  · next inA => cases h; exact inZone_iff.1 inA
  · split at h
    · next inB => cases h; exact inZone_iff.1 inB
    · cases h

theorem Bank.membership_none {k : Bank} {n p c : Nat} (h : k.membership n p c = none) (berth : Berth) (z : BerthEntry)
    (zone : k.berth berth = some z) : z.length < arcAt z n p c := by
  unfold Bank.membership at h
  split at h
  · cases h
  · next outA =>
    split at h
    · cases h
    · next outB =>
      cases berth with
      | a => exact Nat.lt_of_not_le fun within => outA (inZone_iff.2 ⟨z, zone, within⟩)
      | b => exact Nat.lt_of_not_le fun within => outB (inZone_iff.2 ⟨z, zone, within⟩)

/-! ## The events of one cabin -/

section
variable (k : Bank) (n p : Nat) (v : Int) (c : Nat) (old : Option Berth) (mark : Bool)

/-- Whether a cabin's mark stands at a report: it does while its membership does (R45). -/
def markKept : Bool := mark && decide (k.membership n p c = old)

/-- Whether a cabin meets the withdraw point of a berth (R45). -/
def meetsPoint (berth : Berth) : Bool :=
  (k.berth berth).any (fun z => pastWithdraw z n p c) && decide (0 ≤ v) && !markKept k n p c old mark

/-- The exit from the berth that a cabin has left (R44, R46). -/
def exitEvents : List ZoneEvent :=
  (old.filter fun _ => decide (k.membership n p c ≠ old)).toList.map fun berth => .exit c berth (exitSide (k.berth berth) n p c)

/-- The entry to the berth that a cabin has come into (R44). -/
def entryEvents : List ZoneEvent :=
  ((k.membership n p c).filter fun _ => decide (k.membership n p c ≠ old)).toList.map fun berth => .entry c berth

/-- The withdraw point of the berth in which a cabin stands (R45). -/
def withdrawEvents : List ZoneEvent :=
  ((k.membership n p c).filter (meetsPoint k n p v c old mark)).toList.map fun berth => .withdraw c berth

/-- What a report makes of one cabin, by its three kinds of event. -/
theorem moveCabin_eq : moveCabin k n p v c old mark =
    { member := k.membership n p c
      mark := markKept k n p c old mark || (k.membership n p c).any (meetsPoint k n p v c old mark)
      events := exitEvents k n p c old ++ entryEvents k n p c old ++ withdrawEvents k n p v c old mark } := by
  unfold moveCabin exitEvents entryEvents withdrawEvents meetsPoint markKept
  dsimp only
  generalize k.membership n p c = new
  by_cases same : new = old
  · subst same
    cases new with
    | none => simp
    | some berth =>
      cases point : (k.berth berth).any (fun z => pastWithdraw z n p c) && decide (0 ≤ v) && !mark <;>
        simp [Option.filter_some, point]
  · cases old with
    | none =>
      cases new with
      | none => exact absurd rfl same
      | some berth =>
        cases point : (k.berth berth).any (fun z => pastWithdraw z n p c) && decide (0 ≤ v) <;>
          simp [Option.filter_some, point]
    | some was =>
      cases new with
      | none => simp [Option.filter_some]
      | some berth =>
        have other : berth ≠ was := fun h => same (congrArg some h)
        cases point : (k.berth berth).any (fun z => pastWithdraw z n p c) && decide (0 ≤ v) <;>
          simp [Option.filter_some, point, other]

theorem markKept_iff : markKept k n p c old mark = true ↔ mark = true ∧ k.membership n p c = old := by
  rw [markKept, Bool.and_eq_true, decide_eq_true_iff]

theorem meetsPoint_iff {berth : Berth} : meetsPoint k n p v c old mark berth = true ↔
    (∃ z, k.berth berth = some z ∧ z.length - z.margin ≤ arcAt z n p c) ∧ 0 ≤ v ∧
      ¬ (mark = true ∧ k.membership n p c = old) := by
  rw [meetsPoint, Bool.and_eq_true, Bool.and_eq_true, Option.any_eq_true, decide_eq_true_iff, Bool.not_eq_true', ← markKept_iff,
    Bool.not_eq_true, and_assoc]
  exact and_congr_left fun _ => exists_congr fun z => and_congr_right fun _ => decide_eq_true_iff

variable {k n p v c old mark} {e : ZoneEvent}

theorem mem_exitEvents : e ∈ exitEvents k n p c old ↔
    ∃ berth, (old = some berth ∧ k.membership n p c ≠ old) ∧ .exit c berth (exitSide (k.berth berth) n p c) = e := by
  simp only [exitEvents, List.mem_map, Option.mem_toList, Option.filter_eq_some_iff, decide_eq_true_iff]

theorem mem_entryEvents : e ∈ entryEvents k n p c old ↔
    ∃ berth, (k.membership n p c = some berth ∧ k.membership n p c ≠ old) ∧ .entry c berth = e := by
  simp only [entryEvents, List.mem_map, Option.mem_toList, Option.filter_eq_some_iff, decide_eq_true_iff]

theorem mem_withdrawEvents : e ∈ withdrawEvents k n p v c old mark ↔
    ∃ berth, (k.membership n p c = some berth ∧ meetsPoint k n p v c old mark berth = true) ∧ .withdraw c berth = e := by
  simp only [withdrawEvents, List.mem_map, Option.mem_toList, Option.filter_eq_some_iff]

/-- The three kinds of event of one cabin. -/
theorem mem_moveCabin_events : e ∈ (moveCabin k n p v c old mark).events ↔
    e ∈ exitEvents k n p c old ∨ e ∈ entryEvents k n p c old ∨ e ∈ withdrawEvents k n p v c old mark := by
  rw [moveCabin_eq, List.mem_append, List.mem_append, or_assoc]

theorem exit_mem_moveCabin {berth : Berth} {side : Side} : ZoneEvent.exit c berth side ∈ (moveCabin k n p v c old mark).events ↔
    (old = some berth ∧ k.membership n p c ≠ some berth) ∧ side = exitSide (k.berth berth) n p c := by
  rw [mem_moveCabin_events, mem_exitEvents, mem_entryEvents, mem_withdrawEvents]
  constructor
  · rintro (⟨b, ⟨was, left⟩, same⟩ | ⟨b, -, same⟩ | ⟨b, -, same⟩) <;> cases same
    rw [was] at left
    exact ⟨⟨was, left⟩, rfl⟩
  · rintro ⟨⟨was, left⟩, rfl⟩
    exact .inl ⟨berth, ⟨was, by rw [was]; exact left⟩, rfl⟩

theorem entry_mem_moveCabin {berth : Berth} : ZoneEvent.entry c berth ∈ (moveCabin k n p v c old mark).events ↔
    k.membership n p c = some berth ∧ old ≠ some berth := by
  rw [mem_moveCabin_events, mem_exitEvents, mem_entryEvents, mem_withdrawEvents]
  constructor
  · rintro (⟨b, -, same⟩ | ⟨b, ⟨stands, came⟩, same⟩ | ⟨b, -, same⟩) <;> cases same
    rw [stands] at came
    exact ⟨stands, came.symm⟩
  · rintro ⟨stands, came⟩
    exact .inr (.inl ⟨berth, ⟨stands, by rw [stands]; exact came.symm⟩, rfl⟩)

theorem withdraw_mem_moveCabin {berth : Berth} : ZoneEvent.withdraw c berth ∈ (moveCabin k n p v c old mark).events ↔
    k.membership n p c = some berth ∧ meetsPoint k n p v c old mark berth = true := by
  rw [mem_moveCabin_events, mem_exitEvents, mem_entryEvents, mem_withdrawEvents]
  constructor
  · rintro (⟨b, -, same⟩ | ⟨b, -, same⟩ | ⟨b, point, same⟩) <;> cases same
    exact point
  · exact fun point => .inr (.inr ⟨berth, point, rfl⟩)

theorem moveCabin_mark : (moveCabin k n p v c old mark).mark = true ↔ (mark = true ∧ k.membership n p c = old) ∨
    ∃ berth, ZoneEvent.withdraw c berth ∈ (moveCabin k n p v c old mark).events := by
  simp only [withdraw_mem_moveCabin]
  rw [moveCabin_eq, Bool.or_eq_true, markKept_iff, Option.any_eq_true]

/-- The side of an exit, where the berth has a zone (R46). -/
theorem exitSide_spec {z : BerthEntry} {side : Side} (h : side = exitSide (some z) n p c) :
    (side = .far → arcAt z n p c < 524288) ∧ (side = .near → 524288 ≤ arcAt z n p c) := by
  rw [h]
  unfold exitSide
  dsimp only
  split
  · next low => exact ⟨fun _ => low, nofun⟩
  · next high => exact ⟨nofun, fun _ => Nat.le_of_not_lt high⟩

/-! ## Their order -/

/-- The place of an event in the order of a report's events: cabins ascending, and for each exit, entry, withdraw point (R43). -/
def ZoneEvent.rank : ZoneEvent → Nat
  | .exit c _ _ => 3 * c
  | .entry c _ => 3 * c + 1
  | .withdraw c _ => 3 * c + 2

theorem pairwise_map_toList {α β : Type} {R : β → β → Prop} (o : Option α) (g : α → β) :
    (o.toList.map g).Pairwise R := by
  cases o <;> simp

theorem rank_of_mem (h : e ∈ (moveCabin k n p v c old mark).events) : 3 * c ≤ e.rank ∧ e.rank ≤ 3 * c + 2 := by
  rw [mem_moveCabin_events, mem_exitEvents, mem_entryEvents, mem_withdrawEvents] at h
  rcases h with ⟨b, -, rfl⟩ | ⟨b, -, rfl⟩ | ⟨b, -, rfl⟩ <;> simp only [ZoneEvent.rank] <;> omega

theorem moveCabin_events_ordered : (moveCabin k n p v c old mark).events.Pairwise fun x y => x.rank < y.rank := by
  rw [moveCabin_eq]
  refine List.pairwise_append.2 ⟨List.pairwise_append.2 ⟨pairwise_map_toList _ _, pairwise_map_toList _ _,
    fun x xs y ys => ?_⟩, pairwise_map_toList _ _, fun x xs y ys => ?_⟩
  · obtain ⟨b, -, rfl⟩ := mem_exitEvents.1 xs
    obtain ⟨b', -, rfl⟩ := mem_entryEvents.1 ys
    exact Nat.lt_succ_self _
  · obtain ⟨b', -, rfl⟩ := mem_withdrawEvents.1 ys
    rcases List.mem_append.1 xs with xs | xs
    · obtain ⟨b, -, rfl⟩ := mem_exitEvents.1 xs
      simp only [ZoneEvent.rank]
      omega
    · obtain ⟨b, -, rfl⟩ := mem_entryEvents.1 xs
      exact Nat.lt_succ_self _

end

/-! ## The events of a report -/

section
variable {p : Nat} {v : Int} {i : Fin 64} {e : ZoneEvent}

theorem State.moveSlot_of_wheel (h : i.val < s.envelope.count) : s.moveSlot p v i =
    moveCabin s.active s.envelope.count p v (i.val + 1) s.rim.lastKnown[i] s.rim.marks[i] := if_pos h

theorem State.moveSlot_of_beyond (h : s.envelope.count ≤ i.val) : s.moveSlot p v i =
    { member := s.rim.lastKnown[i], mark := s.rim.marks[i], events := [] } := if_neg (Nat.not_lt.2 h)

theorem State.mem_zoneEvents : e ∈ s.zoneEvents p v ↔ ∃ i, e ∈ (s.moveSlot p v i).events := by
  simp only [State.zoneEvents, List.mem_flatMap, List.mem_finRange, true_and]

/-- The events of a slot rank by its cabin. -/
theorem State.moveSlot_rank (h : e ∈ (s.moveSlot p v i).events) :
    3 * (i.val + 1) ≤ e.rank ∧ e.rank ≤ 3 * (i.val + 1) + 2 := by
  by_cases wheel : i.val < s.envelope.count
  · rw [State.moveSlot_of_wheel wheel] at h
    exact rank_of_mem h
  · rw [State.moveSlot_of_beyond (Nat.not_lt.1 wheel)] at h
    exact absurd h List.not_mem_nil

/-- An event of a cabin is one of its slot's. -/
theorem State.mem_zoneEvents_of_rank (rank : 3 * (i.val + 1) ≤ e.rank ∧ e.rank ≤ 3 * (i.val + 1) + 2) :
    e ∈ s.zoneEvents p v ↔ e ∈ (s.moveSlot p v i).events := by
  rw [State.mem_zoneEvents]
  refine ⟨fun ⟨j, mem⟩ => ?_, fun mem => ⟨i, mem⟩⟩
  have place := State.moveSlot_rank mem
  have same : j = i := Fin.ext (by omega)
  rw [← same]
  exact mem

theorem State.zoneEvents_ordered (s : State) (p : Nat) (v : Int) :
    (s.zoneEvents p v).Pairwise fun x y => x.rank < y.rank := by
  refine List.pairwise_flatMap.2 ⟨fun i _ => ?_, ?_⟩
  · by_cases wheel : i.val < s.envelope.count
    · rw [State.moveSlot_of_wheel wheel]
      exact moveCabin_events_ordered
    · rw [State.moveSlot_of_beyond (Nat.not_lt.1 wheel)]
      exact List.Pairwise.nil
  · refine (List.pairwise_lt_finRange 64).imp fun {i j} before x xs y ys => ?_
    have first := State.moveSlot_rank xs
    have second := State.moveSlot_rank ys
    have : i.val < j.val := before
    omega

end

/-! ## The report as a whole -/

/-- What a report makes of each slot rests on the bank in force, the wheel and the tracker. -/
theorem State.moveSlot_congr (active : t.active = s.active) (envelope : t.envelope = s.envelope) (rim : t.rim = s.rim) (p : Nat)
    (v : Int) (i : Fin 64) : t.moveSlot p v i = s.moveSlot p v i := by
  unfold State.moveSlot
  rw [active, envelope, rim]

theorem State.zoneEvents_congr (active : t.active = s.active) (envelope : t.envelope = s.envelope) (rim : t.rim = s.rim) (p : Nat)
    (v : Int) : t.zoneEvents p v = s.zoneEvents p v := by
  unfold State.zoneEvents
  rw [funext (State.moveSlot_congr active envelope rim p v)]

/-- The state in which a GOOD report's events are taken (R37). -/
def State.fixed (s : State) (p : Nat) (v : Int) : State :=
  (s.withRim { s.rim with
    known := true, fix := some { position := p, speed := v }, watch := some s.active.gov.encoderMs }).recomputeCeilings

/-- The state in which they have been taken (R43). -/
def State.moved (s : State) (p : Nat) (v : Int) : State := (s.zoneEvents p v).foldl State.takeZoneEvent (s.fixed p v)

theorem State.takeGoodRim_eq (s : State) (p : Nat) (v : Int) : s.takeGoodRim p v =
    (s.moved p v).withRim { (s.moved p v).rim with
      lastKnown := Vector.ofFn fun i => (s.moveSlot p v i).member
      marks := Vector.ofFn fun i => (s.moveSlot p v i).mark } := rfl

theorem State.afterGrants_of_none {before : State} (h : before.noGrants = true) : s.afterGrants before = s :=
  if_neg (by rw [h]; nofun)

theorem State.afterGrants_of_left {before : State} (h : s.noGrants = false) : s.afterGrants before = s :=
  if_neg (by rw [h, Bool.and_false]; nofun)

theorem State.afterGrants_of_idle {before : State} (h : s.policy.commit ≠ .pending) : s.afterGrants before = s := by
  unfold State.afterGrants
  split
  · exact State.trySwap_of_unsafe (.inl h)
  · rfl

theorem State.noGrants_congr (h : t.board.grants = s.board.grants) : t.noGrants = s.noGrants := by
  unfold State.noGrants
  rw [h]

/-- Settles O31: `moveSlot` says what is raised, `zoneEvents` lists it in order, and `takeGoodRim` takes it. -/
theorem zoneEventsAreRaised : Obligations.ZoneEventsAreRaised := by
  intro s
  refine ⟨fun p v i wheel => ?_, fun p v => ?_, fun f p2 p1 p0 v1 v0 running good kind payload role => ?_⟩
  · intro c n old new kept events
    have ofSlot {e : ZoneEvent} (low : 3 * c ≤ e.rank) (high : e.rank ≤ 3 * c + 2) :
        e ∈ events ↔ e ∈ (moveCabin s.active n p v c old s.rim.marks[i]).events := by
      rw [← State.moveSlot_of_wheel wheel]
      exact State.mem_zoneEvents_of_rank ⟨low, high⟩
    have stands : new = s.active.membership n p c := by
      rw [← show (moveCabin s.active n p v c old s.rim.marks[i]).member = s.active.membership n p c by rw [moveCabin_eq],
        ← State.moveSlot_of_wheel wheel]
    have exits (berth : Berth) (side : Side) : ZoneEvent.exit c berth side ∈ events ↔
        (old = some berth ∧ new ≠ some berth) ∧ side = exitSide (s.active.berth berth) n p c := by
      rw [stands, ofSlot (Nat.le_refl _) (Nat.le_add_right _ _), exit_mem_moveCabin]
    have entries (berth : Berth) : ZoneEvent.entry c berth ∈ events ↔ new = some berth ∧ old ≠ some berth := by
      rw [stands, ofSlot (Nat.le_add_right _ _) (Nat.le_succ _), entry_mem_moveCabin]
    have points (berth : Berth) : ZoneEvent.withdraw c berth ∈ events ↔
        new = some berth ∧ meetsPoint s.active n p v c old s.rim.marks[i] berth = true := by
      rw [stands, ofSlot (Nat.le_add_right _ _) (Nat.le_refl _), withdraw_mem_moveCabin]
    refine ⟨fun berth inside => Bank.membership_some (stands ▸ inside), fun out => Bank.membership_none (stands ▸ out),
      entries, fun berth => ?_, fun berth z zone => ⟨fun mem => ?_, fun mem => ?_⟩, fun berth => ?_, ?_⟩
    · exact ⟨fun ⟨side, mem⟩ => ((exits berth side).1 mem).1, fun left => ⟨_, (exits berth _).2 ⟨left, rfl⟩⟩⟩
    · obtain ⟨-, side⟩ := (exits berth .far).1 mem
      rw [zone] at side
      exact (exitSide_spec side).1 rfl
    · obtain ⟨-, side⟩ := (exits berth .near).1 mem
      rw [zone] at side
      exact (exitSide_spec side).2 rfl
    · rw [points, meetsPoint_iff, ← stands]
    · have marked : (s.moveSlot p v i).mark = true ↔ (s.rim.marks[i] = true ∧ s.active.membership n p c = old) ∨
          ∃ berth, ZoneEvent.withdraw c berth ∈ (moveCabin s.active n p v c old s.rim.marks[i]).events := by
        rw [State.moveSlot_of_wheel wheel, moveCabin_mark]
      rw [marked, ← stands]
      exact or_congr Iff.rfl (exists_congr fun berth => (ofSlot (Nat.le_add_right _ _) (Nat.le_refl _)).symm)
  · exact (s.zoneEvents_ordered p v).imp fun {x y} before => by cases x <;> cases y <;> exact before
  · intro p v w
    have frame : s.OnlyChanges w [.path, .notices] := s.sorted_frame f
    have active : w.active = s.active := s.sorted_active f
    have envelope : w.envelope = s.envelope := frame .envelope (by decide)
    have rim : w.rim = s.rim := frame .rim (by decide)
    refine ⟨frame, ?_⟩
    intro start done waits
    have isDone : w.moved p v = done := by
      simp only [done, start]
      rw [State.moved, State.zoneEvents_congr active envelope rim, State.fixed, active]
    have taken : w.takeGoodRim p v = done.withRim { done.rim with
        lastKnown := Vector.ofFn fun i => (s.moveSlot p v i).member
        marks := Vector.ofFn fun i => (s.moveSlot p v i).mark } := by
      rw [State.takeGoodRim_eq, isDone, funext (State.moveSlot_congr active envelope rim p v)]
    have stays : (w.takeGoodRim p v).afterGrants w = w.takeGoodRim p v := by
      rcases waits with idle | empty | left
      · have policy : (w.takeGoodRim p v).policy = w.policy := (Move.takeGoodRim w p v).onlyChanges .policy (by decide)
        have same : w.policy = s.policy := frame .policy (by decide)
        exact State.afterGrants_of_idle (by rw [policy, same]; exact idle)
      · have board : w.board = s.board := frame .board (by decide)
        exact State.afterGrants_of_none ((State.noGrants_congr (by rw [board])).trans empty)
      · have board : (w.takeGoodRim p v).board = done.board := by rw [taken, State.withRim_board]
        exact State.afterGrants_of_left ((State.noGrants_congr (by rw [board])).trans left)
    refine exec_noted running good fun told => ?_
    rw [State.handOver_rim told kind payload (by rw [active]; exact role), if_pos rfl, stays, taken]

end Sys2Proof.Machine
end

section
/-! PROOFS. What the zone events and the ends of grants bring (R54, R61, R80 to R82, R145 to R149). -/

namespace Sys2Proof.Machine

variable {s t u : State} {c d : Nat} {berth : Berth} {g : Grant}

/-! ## Served flags -/

theorem State.setServed_served (s : State) (c : Nat) (v : Bool) (d : Nat) :
    (s.setServed c v).served d = if d = c ∧ 1 ≤ c ∧ c ≤ 64 then v else s.served d := by
  unfold State.setServed State.served
  by_cases isSlot : 1 ≤ c
  · rw [if_neg (by omega : ¬ c = 0), State.withSweep_sweep]
    by_cases zero : d = 0
    · rw [if_pos zero, if_neg (by omega : ¬ (d = c ∧ 1 ≤ c ∧ c ≤ 64)), if_pos zero]
    · rw [if_neg zero, if_neg zero]
      unfold slot
      by_cases same : d = c
      · subst same
        by_cases within : d ≤ 64
        · rw [if_pos ⟨rfl, isSlot, within⟩, Vector.getElem?_setIfInBounds_self_of_lt (by omega)]
          rfl
        · have out : ¬ d - 1 < 64 := by omega
          rw [if_neg (fun k => within k.2.2)]
          simp [out]
      · rw [if_neg (fun k => same k.1), Vector.getElem?_setIfInBounds_ne (by omega)]
  · rw [if_pos (by omega : c = 0), if_neg (by omega : ¬ (d = c ∧ 1 ≤ c ∧ c ≤ 64))]

theorem State.setServed_sweep (s : State) (c : Nat) (v : Bool) :
    (s.setServed c v).sweep = { s.sweep with served := (s.setServed c v).sweep.served } := by
  unfold State.setServed
  split <;> rfl

theorem State.setServed_cabins (s : State) (c : Nat) (v : Bool) : (s.setServed c v).cabins = s.cabins :=
  (Move.setServed (q := true) s c v).onlyChanges .cabins (by decide)

theorem State.served_congr (h : t.sweep.served = s.sweep.served) (d : Nat) : t.served d = s.served d := by
  unfold State.served
  rw [h]

/-! ## A cycle and an exit, at the cabin itself and at the others -/

/-- Whether a cabin counts as one with people aboard: occupied, or of an UNCERTAIN count (R145). -/
def Cabin.aboard (x : Cabin) : Bool := decide (0 < x.occupancy) || x.uncertain

theorem Cabin.aboard_iff {x : Cabin} : x.aboard = true ↔ 0 < x.occupancy ∨ x.uncertain = true := by
  rw [Cabin.aboard, Bool.or_eq_true, decide_eq_true_iff]

theorem State.sweepCycle_of_idle (idle : s.sweep.state = .idle) : s.sweepCycle c = s.setServed c true := if_pos idle

section
variable (inForce : s.sweep.state ≠ .idle) (on : s.listed c = true)
include inForce on

theorem State.sweepCycle_of_empty (empty : (s.cabin c).aboard = false) :
    s.sweepCycle c = (s.removeCabin c).finishSweep s .cabin := by
  unfold State.sweepCycle
  dsimp only
  rw [if_neg inForce, if_pos on]
  exact congrArg (State.finishSweep · s .cabin) (if_neg (Bool.eq_false_iff.1 empty))

theorem State.sweepCycle_of_aboard (aboard : (s.cabin c).aboard = true) :
    s.sweepCycle c = (s.setServed c true).finishSweep s .cabin := by
  unfold State.sweepCycle
  dsimp only
  rw [if_neg inForce, if_pos on]
  exact congrArg (State.finishSweep · s .cabin) (if_pos aboard)

theorem State.sweepExit_of_empty (empty : (s.cabin c).aboard = false) :
    s.sweepExit c berth = (s.removeCabin c).finishSweep s .cabin := by
  unfold State.sweepExit
  dsimp only
  rw [if_neg (by rw [on]; exact not_or.2 ⟨inForce, nofun⟩)]
  exact congrArg (State.finishSweep · s .cabin) (if_neg (Bool.eq_false_iff.1 empty))

theorem State.sweepExit_of_served (aboard : (s.cabin c).aboard = true) (served : s.served c = true) :
    s.sweepExit c berth = (s.toTail c).finishSweep s .cabin := by
  unfold State.sweepExit
  dsimp only
  rw [if_neg (by rw [on]; exact not_or.2 ⟨inForce, nofun⟩)]
  exact congrArg (State.finishSweep · s .cabin) ((if_pos aboard).trans (if_pos served))

theorem State.sweepExit_of_pass (aboard : (s.cabin c).aboard = true) (unserved : s.served c = false) :
    s.sweepExit c berth = (s.sweepPass c berth).finishSweep s .cabin := by
  unfold State.sweepExit
  dsimp only
  rw [if_neg (by rw [on]; exact not_or.2 ⟨inForce, nofun⟩)]
  exact congrArg (State.finishSweep · s .cabin) ((if_pos aboard).trans (if_neg (Bool.eq_false_iff.1 unserved)))

end

theorem State.sweepExit_of_unlisted (h : s.sweep.state = .idle ∨ s.listed c = false) : s.sweepExit c berth = s := if_pos h

/-- The operations on a cabin's place leave the other cabins' records. -/
theorem State.removeCabin_cabin_of_ne (h : d ≠ c) : (s.removeCabin c).cabin d = s.cabin d := by
  rw [State.removeCabin_cabin, if_neg fun k => h k.1]

theorem State.appendCabin_cabin_of_ne (h : d ≠ c) : (s.appendCabin c).cabin d = s.cabin d := by
  rw [State.appendCabin_cabin, if_neg fun k => h k.1]

theorem State.setServed_cabin (s : State) (c : Nat) (v : Bool) (d : Nat) : (s.setServed c v).cabin d = s.cabin d :=
  State.cabin_congr (s.setServed_cabins c v) d

theorem State.sweepCycle_cabin_of_ne (h : d ≠ c) : (s.sweepCycle c).cabin d = s.cabin d := by
  unfold State.sweepCycle
  dsimp only
  split
  · exact s.setServed_cabin c true d
  · rw [State.finishSweep_cabin]
    split
    · split
      · exact s.setServed_cabin c true d
      · exact State.removeCabin_cabin_of_ne h
    · split
      · exact (State.setServed_cabin _ c true d).trans (State.appendCabin_cabin_of_ne h)
      · exact s.setServed_cabin c true d

theorem State.sweepPass_cabin_of_ne (h : d ≠ c) : (s.sweepPass c berth).cabin d = s.cabin d := by
  unfold State.sweepPass
  dsimp only
  split
  · exact State.withCabin_cabin_of_ne h _
  · split
    · exact (State.post_cabin _ _ _ _ _ _ _ _ d).trans (State.withCabin_cabin_of_ne h _)
    · exact State.withCabin_cabin_of_ne h _

theorem State.sweepExit_cabin_of_ne (h : d ≠ c) : (s.sweepExit c berth).cabin d = s.cabin d := by
  unfold State.sweepExit
  dsimp only
  split
  · rfl
  · rw [State.finishSweep_cabin]
    split
    · split
      · rfl
      · exact State.sweepPass_cabin_of_ne h
    · exact State.removeCabin_cabin_of_ne h

/-! ## The end of a grant -/

theorem State.registerCycle_cabin_of_ne {k : GrantKind} (h : d ≠ c) : (s.registerCycle c k).cabin d = s.cabin d := by
  unfold State.registerCycle State.postCabin
  rw [State.post_cabin]
  split
  · exact State.withCabin_cabin_of_ne h _
  · rfl

theorem State.registerCycle_cabin_self {k : GrantKind} (low : 1 ≤ c) (high : c ≤ 64) : (s.registerCycle c k).cabin c =
    { s.cabin c with assist := (s.cabin c).assist || (decide (k = .assist) && decide (0 < (s.cabin c).occupancy)) } := by
  unfold State.registerCycle State.postCabin
  rw [State.post_cabin]
  split
  · next assisted =>
    rw [State.withCabin_cabin_self low high, decide_eq_true assisted.1, decide_eq_true assisted.2, Bool.and_self, Bool.or_true]
  · next not =>
    rw [← Bool.decide_and, decide_eq_false not, Bool.or_false]

/-- The register has heard of the end of a grant, and the scheduler has not. -/
def State.cycled (s : State) (berth : Berth) (g : Grant) : State := (s.withGrant berth none).registerCycle g.cabin g.kind

theorem State.endGrant_eq (s : State) (berth : Berth) (g : Grant) :
    s.endGrant berth g = ((s.cycled berth g).sweepCycle g.cabin).recomputeBoarding := rfl

theorem State.cycled_frame (s : State) (berth : Berth) (g : Grant) :
    s.OnlyChanges (s.cycled berth g) [.board, .cabins, .notices] :=
  ((Move.withGrant s berth none).onlyChanges.mono (by decide)).trans
    ((Move.registerCycle (q := true) _ g.cabin g.kind).onlyChanges.mono (by decide))

theorem State.cycled_cabin_self (low : 1 ≤ g.cabin) (high : g.cabin ≤ 64) : (s.cycled berth g).cabin g.cabin =
    { s.cabin g.cabin with
      assist := (s.cabin g.cabin).assist || (decide (g.kind = .assist) && decide (0 < (s.cabin g.cabin).occupancy)) } :=
  State.registerCycle_cabin_self (s := s.withGrant berth none) low high

theorem State.cycled_cabin_of_ne (h : d ≠ g.cabin) : (s.cycled berth g).cabin d = s.cabin d :=
  State.registerCycle_cabin_of_ne (s := s.withGrant berth none) h

theorem State.cycled_aboard (low : 1 ≤ g.cabin) (high : g.cabin ≤ 64) :
    ((s.cycled berth g).cabin g.cabin).aboard = (s.cabin g.cabin).aboard := by
  rw [State.cycled_cabin_self low high]
  rfl

theorem State.cycled_listed (low : 1 ≤ g.cabin) (high : g.cabin ≤ 64) : 
    (s.cycled berth g).listed g.cabin = s.listed g.cabin := by
  rw [State.listed, State.cycled_cabin_self low high]
  rfl

theorem State.cycled_sweep (s : State) (berth : Berth) (g : Grant) : (s.cycled berth g).sweep = s.sweep :=
  s.cycled_frame berth g .sweep (by decide)

/-- What the end of a grant leaves of its cabin's record. -/
structure State.Ended (s u : State) (berth : Berth) (g : Grant) : Prop where
  record     : u.cabin g.cabin = { s.cabin g.cabin with
    assist := (s.cabin g.cabin).assist || (decide (g.kind = .assist) && decide (0 < (s.cabin g.cabin).occupancy))
    mark := (u.cabin g.cabin).mark, passes := (u.cabin g.cabin).passes }
  others     : ∀ d, d ≠ g.cabin → u.cabin d = s.cabin d
  grants     : u.board.grants = s.board.grants.set berth none
  gates      : u.board.gates = s.board.gates
  conditions : u.ConditionsAgree
  ceilings   : u.CeilingsAgree
  frame      : s.OnlyChanges u [.board, .cabins, .sweep, .governor, .notices]

theorem State.endGrant_ended (s : State) (berth : Berth) (g : Grant) (low : 1 ≤ g.cabin) (high : g.cabin ≤ 64) :
    s.Ended (s.endGrant berth g) berth g := by
  have swept := (Move.sweepCycle (q := true) (s.cycled berth g) g.cabin).onlyChanges
  have board : ((s.cycled berth g).sweepCycle g.cabin).board = (s.cycled berth g).board := swept .board (by decide)
  have told : (s.cycled berth g).board = (s.withGrant berth none).board :=
    (Move.registerCycle (q := true) (s.withGrant berth none) g.cabin g.kind).onlyChanges .board (by decide)
  refine ⟨?_, fun d other => ?_, s.endGrant_grants berth g, ?_, State.recomputeBoarding_conditions _,
    State.recomputeBoarding_ceilings _, (Move.endGrant s berth g).onlyChanges⟩
  · have kept := (State.KeepsRecords.sweepCycle (s.cycled berth g) g.cabin).cabins g.cabin
    rw [State.cycled_cabin_self low high] at kept
    exact kept
  · exact (State.sweepCycle_cabin_of_ne other).trans (State.cycled_cabin_of_ne other)
  · rw [s.endGrant_eq, State.recomputeBoarding_gates, board, told]
    rfl

/-! ## The visit that an exit ends -/

section
variable (low : 1 ≤ c) (high : c ≤ 64)
include low high

theorem State.removeCabin_mark : ((s.removeCabin c).cabin c).mark = none := by
  rw [State.removeCabin_cabin, if_pos ⟨rfl, low, high⟩]

/-- A pass: the cabin goes to the tail with its count raised and its mark (R148, R149). -/
theorem State.sweepPass_spec : (s.sweepPass c berth).sweep = { s.sweep with list := s.sweep.list.filter (· ≠ c) ++ [c] } ∧
    (s.sweepPass c berth).cabin c = { s.cabin c with
      passes := min ((s.cabin c).passes + 1) 8
      mark := if (s.cabin c).mark = some .stuck ∨ s.active.passes ≤ min ((s.cabin c).passes + 1) 8 then some .stuck
        else some .passed } := by
  have cabin : (s.toTail c).cabin c = s.cabin c := rfl
  unfold State.sweepPass
  dsimp only
  rw [cabin]
  by_cases stuck : (s.cabin c).mark = some .stuck
  · rw [if_pos stuck, if_pos (.inl stuck), State.withCabin_cabin_self low high, State.withCabin_sweep]
    exact ⟨rfl, by rw [← stuck]⟩
  · rw [if_neg stuck]
    by_cases limit : s.active.passes ≤ min ((s.cabin c).passes + 1) 8
    · rw [if_pos limit, if_pos (.inr limit), State.postStuck, State.post_sweep, State.post_cabin,
        State.withCabin_cabin_self low high, State.withCabin_sweep]
      exact ⟨rfl, rfl⟩
    · rw [if_neg limit, if_neg (not_or.2 ⟨stuck, limit⟩), State.withCabin_cabin_self low high, State.withCabin_sweep]
      exact ⟨rfl, rfl⟩

section
variable (inForce : s.sweep.state ≠ .idle) (on : s.listed c = true)
include inForce on

theorem State.sweepExit_empty (empty : (s.cabin c).aboard = false) :
    (s.sweepExit c berth).sweep.list = s.sweep.list.filter (· ≠ c) ∧ ((s.sweepExit c berth).cabin c).mark = none := by
  rw [State.sweepExit_of_empty inForce on empty, State.finishSweep_sweep, State.removeCabin_sweep, State.finishSweep_cabin]
  exact ⟨rfl, State.removeCabin_mark low high⟩

omit low high in
theorem State.sweepExit_served (aboard : (s.cabin c).aboard = true) (served : s.served c = true) :
    (s.sweepExit c berth).sweep.list = s.sweep.list.filter (· ≠ c) ++ [c] ∧ (s.sweepExit c berth).cabin c = s.cabin c := by
  rw [State.sweepExit_of_served inForce on aboard served, State.finishSweep_sweep, State.finishSweep_cabin]
  exact ⟨rfl, rfl⟩

theorem State.sweepExit_pass (aboard : (s.cabin c).aboard = true) (unserved : s.served c = false) :
    (s.sweepExit c berth).sweep.list = s.sweep.list.filter (· ≠ c) ++ [c] ∧
    ((s.sweepExit c berth).cabin c).passes = min ((s.cabin c).passes + 1) 8 ∧
    ((s.sweepExit c berth).cabin c).mark =
      if (s.cabin c).mark = some .stuck ∨ s.active.passes ≤ min ((s.cabin c).passes + 1) 8 then some .stuck
      else some .passed := by
  obtain ⟨sweep, cabin⟩ := State.sweepPass_spec (s := s) (berth := berth) low high
  rw [State.sweepExit_of_pass inForce on aboard unserved, State.finishSweep_sweep, State.finishSweep_cabin, sweep, cabin]
  exact ⟨rfl, rfl, rfl⟩

end

end

/-! ## The cycle that an exit completes -/

theorem State.sweepStateNow_of_caused (caused : s.sweep.caused = true) : s.sweepStateNow ≠ .idle := by
  unfold State.sweepStateNow
  rw [caused, Bool.not_true, if_neg Bool.false_ne_true]
  split_ifs <;> nofun

/-- With a cause the sweep is in force when the scheduler has ended its part. -/
theorem State.finishSweep_inForce {before : State} {src : SweepSource} (caused : s.sweep.caused = true) :
    (s.finishSweep before src).sweep.state ≠ .idle := by
  rw [State.finishSweep_sweep]
  exact State.sweepStateNow_of_caused caused

section
variable (low : 1 ≤ g.cabin) (high : g.cabin ≤ 64)
include low high

theorem State.endGrant_sweep_of_idle (idle : s.sweep.state = .idle) :
    (s.endGrant berth g).sweep.list = s.sweep.list ∧ (s.endGrant berth g).sweep.state = .idle ∧
      (s.endGrant berth g).served g.cabin = true := by
  have sweep := s.cycled_sweep berth g
  have swept : (s.cycled berth g).sweepCycle g.cabin = (s.cycled berth g).setServed g.cabin true :=
    State.sweepCycle_of_idle (by rw [sweep]; exact idle)
  have served := State.setServed_served (s.cycled berth g) g.cabin true g.cabin
  rw [if_pos ⟨rfl, low, high⟩] at served
  refine ⟨?_, ?_, ?_⟩
  · rw [s.endGrant_eq, swept, State.recomputeBoarding_sweep, State.setServed_sweep, sweep]
  · rw [s.endGrant_eq, swept, State.recomputeBoarding_sweep, State.setServed_sweep, sweep]
    exact idle
  · rw [s.endGrant_eq, swept]
    exact (State.served_congr (congrArg SweepScheduler.served (State.recomputeBoarding_sweep _)) _).trans served

section
variable (inForce : s.sweep.state ≠ .idle) (on : s.listed g.cabin = true)
include inForce on

theorem State.endGrant_sweep_of_empty (empty : (s.cabin g.cabin).aboard = false) :
    (s.endGrant berth g).sweep.list = s.sweep.list.filter (· ≠ g.cabin) ∧
      ((s.endGrant berth g).cabin g.cabin).mark = none := by
  have sweep := s.cycled_sweep berth g
  have swept : (s.cycled berth g).sweepCycle g.cabin =
      ((s.cycled berth g).removeCabin g.cabin).finishSweep (s.cycled berth g) .cabin :=
    State.sweepCycle_of_empty (by rw [sweep]; exact inForce) (by rw [State.cycled_listed low high]; exact on)
      (by rw [State.cycled_aboard low high]; exact empty)
  refine ⟨?_, ?_⟩
  · rw [s.endGrant_eq, swept, State.recomputeBoarding_sweep, State.finishSweep_sweep, State.removeCabin_sweep, sweep]
  · rw [s.endGrant_eq, swept, State.recomputeBoarding_cabin, State.finishSweep_cabin]
    exact State.removeCabin_mark low high

theorem State.endGrant_sweep_of_aboard (caused : s.sweep.caused = true) (aboard : (s.cabin g.cabin).aboard = true) :
    (s.endGrant berth g).sweep.list = s.sweep.list ∧ (s.endGrant berth g).sweep.state ≠ .idle ∧
      (s.endGrant berth g).served g.cabin = true ∧ (s.endGrant berth g).cabin g.cabin = (s.cycled berth g).cabin g.cabin := by
  have sweep := s.cycled_sweep berth g
  have swept : (s.cycled berth g).sweepCycle g.cabin =
      ((s.cycled berth g).setServed g.cabin true).finishSweep (s.cycled berth g) .cabin :=
    State.sweepCycle_of_aboard (by rw [sweep]; exact inForce) (by rw [State.cycled_listed low high]; exact on)
      (by rw [State.cycled_aboard low high]; exact aboard)
  have flagged := (s.cycled berth g).setServed_sweep g.cabin true
  have served := State.setServed_served (s.cycled berth g) g.cabin true g.cabin
  rw [if_pos ⟨rfl, low, high⟩] at served
  rw [s.endGrant_eq, swept, State.recomputeBoarding_sweep, State.recomputeBoarding_cabin, State.finishSweep_cabin,
    State.setServed_cabin]
  refine ⟨?_, State.finishSweep_inForce (by rw [flagged, sweep]; exact caused), ?_, rfl⟩
  · rw [State.finishSweep_sweep, flagged, sweep]
  · refine (State.served_congr ?_ _).trans served
    rw [State.recomputeBoarding_sweep, State.finishSweep_sweep]

end

end

/-! ## The exit at the Boarding Screen -/

theorem State.stampExit_cabin_self (low : 1 ≤ c) (high : c ≤ 64) :
    (s.stampExit c).cabin c = { s.cabin c with lastExit := some s.stamp } := State.withCabin_cabin_self low high _

theorem State.stampExit_cabin_of_ne (h : d ≠ c) : (s.stampExit c).cabin d = s.cabin d := State.withCabin_cabin_of_ne h _

theorem State.stampExit_frame (s : State) (c : Nat) : s.OnlyChanges (s.stampExit c) [.cabins] := s.withCabin_frame c _

theorem State.boardExit_of_away (h : ¬ ∃ g, s.board.grants.get berth = some g ∧ g.cabin = c) : s.boardExit c berth = s := by
  unfold State.boardExit
  split
  · rfl
  · next g held => exact if_neg fun same => h ⟨g, held, same⟩

theorem State.boardExit_of_locked (held : s.board.grants.get berth = some g) (locked : (s.cabin g.cabin).door = .locked) :
    s.boardExit g.cabin berth = s.endGrant berth g := by
  unfold State.boardExit
  rw [held]
  exact (if_pos rfl).trans (if_pos locked)

theorem State.boardExit_of_unlocked (held : s.board.grants.get berth = some g) (unlocked : (s.cabin g.cabin).door ≠ .locked) :
    s.boardExit g.cabin berth = (s.withGrant berth (some { g with state := .late })).recomputeBoarding := by
  unfold State.boardExit
  rw [held]
  exact (if_pos rfl).trans (if_neg unlocked)

/-- What an exit leaves of its cabin, of the other cabins and of the grants, before the scheduler judges the visit. -/
structure State.Exited (s u : State) (c : Nat) (berth : Berth) : Prop where
  record     : ∃ assist mark passes,
    u.cabin c = { s.cabin c with lastExit := some s.stamp, assist := assist, mark := mark, passes := passes }
  others     : ∀ d, d ≠ c → u.cabin d = s.cabin d
  gates      : u.board.gates = s.board.gates
  away       : (¬ ∃ g, s.board.grants.get berth = some g ∧ g.cabin = c) → u = s.stampExit c
  conditions : (∃ g, s.board.grants.get berth = some g ∧ g.cabin = c) → u.ConditionsAgree ∧ u.CeilingsAgree
  locked     : ∀ g, s.board.grants.get berth = some g → g.cabin = c → (s.cabin c).door = .locked →
    u = (s.stampExit c).endGrant berth g ∧ u.board.grants = s.board.grants.set berth none
  late       : ∀ g, s.board.grants.get berth = some g → g.cabin = c → (s.cabin c).door ≠ .locked →
    u.board.grants = s.board.grants.set berth (some { g with state := .late })
  visiting   : ((¬ ∃ g, s.board.grants.get berth = some g ∧ g.cabin = c) ∨ (s.cabin c).door ≠ .locked) →
    u.sweep = s.sweep ∧ u.cabin c = { s.cabin c with lastExit := some s.stamp }
  frame      : s.OnlyChanges u [.cabins, .board, .governor, .sweep, .notices]

theorem State.boardExit_exited (low : 1 ≤ c) (high : c ≤ 64) : s.Exited ((s.stampExit c).boardExit c berth) c berth := by
  have stamped := s.stampExit_frame c
  have self := State.stampExit_cabin_self (s := s) low high
  have frame : s.OnlyChanges ((s.stampExit c).boardExit c berth) [.cabins, .board, .governor, .sweep, .notices] :=
    (stamped.mono (by decide)).trans ((Move.boardExit (s.stampExit c) c berth).onlyChanges.mono (by decide))
  have board : (s.stampExit c).board = s.board := stamped .board (by decide)
  have sweep : (s.stampExit c).sweep = s.sweep := stamped .sweep (by decide)
  by_cases here : ∃ g, s.board.grants.get berth = some g ∧ g.cabin = c
  · obtain ⟨g, held, rfl⟩ := here
    have only {g' : Grant} (h : s.board.grants.get berth = some g') : g' = g := Option.some.inj (h.symm.trans held)
    by_cases door : (s.cabin g.cabin).door = .locked
    · have isEnd : (s.stampExit g.cabin).boardExit g.cabin berth = (s.stampExit g.cabin).endGrant berth g :=
        State.boardExit_of_locked (by rw [board]; exact held) (by rw [self]; exact door)
      have ended := (s.stampExit g.cabin).endGrant_ended berth g low high
      rw [isEnd] at frame ⊢
      refine ⟨⟨_, _, _, ended.record.trans (by rw [self])⟩, fun d other => ?_, ended.gates.trans (by rw [board]),
        fun away => absurd ⟨g, held, rfl⟩ away, fun _ => ⟨ended.conditions, ended.ceilings⟩, fun g' h same _ => ?_,
        fun g' h same open_ => absurd door open_, fun visits => ?_, frame⟩
      · exact (ended.others d other).trans (State.stampExit_cabin_of_ne other)
      · rw [only h]
        exact ⟨rfl, ended.grants.trans (by rw [board])⟩
      · exact visits.elim (absurd ⟨g, held, rfl⟩ ·) (absurd door ·)
    · have isLate : (s.stampExit g.cabin).boardExit g.cabin berth =
          ((s.stampExit g.cabin).withGrant berth (some { g with state := .late })).recomputeBoarding :=
        State.boardExit_of_unlocked (by rw [board]; exact held) (by rw [self]; exact door)
      have grants : ((s.stampExit g.cabin).withGrant berth (some { g with state := .late })).recomputeBoarding.board.grants =
          s.board.grants.set berth (some { g with state := .late }) := by
        rw [State.recomputeBoarding_grants, ← board]
        rfl
      have gates : ((s.stampExit g.cabin).withGrant berth (some { g with state := .late })).recomputeBoarding.board.gates =
          s.board.gates := by
        rw [State.recomputeBoarding_gates, ← board]
        rfl
      rw [isLate] at frame ⊢
      refine ⟨⟨_, _, _, self⟩, fun d other => State.stampExit_cabin_of_ne other, gates,
        fun away => absurd ⟨g, held, rfl⟩ away,
        fun _ => ⟨State.recomputeBoarding_conditions _, State.recomputeBoarding_ceilings _⟩,
        fun g' h same locked => absurd locked door, fun g' h same _ => by rw [only h]; exact grants, fun _ => ⟨?_, self⟩,
        frame⟩
      rw [State.recomputeBoarding_sweep, ← sweep]
      rfl
  · have stays : (s.stampExit c).boardExit c berth = s.stampExit c := State.boardExit_of_away (by rw [board]; exact here)
    rw [stays] at frame ⊢
    exact ⟨⟨_, _, _, self⟩, fun d other => State.stampExit_cabin_of_ne other, by rw [board], fun _ => rfl,
      fun h => absurd h here, fun g held same => absurd ⟨g, held, same⟩ here,
      fun g held same => absurd ⟨g, held, same⟩ here, fun _ => ⟨sweep, self⟩, frame⟩

/-! ## A pass that marks its cabin STUCK -/

theorem State.withCabin_withCabin (s : State) (c : Nat) (x y : Cabin) : (s.withCabin c x).withCabin c y = s.withCabin c y := by
  unfold State.withCabin
  split
  · rfl
  · simp only [State.withCabins, Vector.setIfInBounds_setIfInBounds]

theorem State.withCabin_withSweep (s : State) (c : Nat) (x : Cabin) (w : SweepScheduler) :
    (s.withSweep w).withCabin c x = (s.withCabin c x).withSweep w := by
  unfold State.withCabin
  split <;> rfl

/-- The scheduler ends its part in silence where state and causes stand. -/
theorem State.finishSweep_silent {before : State} {src : SweepSource} (now : s.sweepStateNow = .active)
    (state : s.sweep.state = .active) (stood : before.sweep.state = .active) (causes : s.sweep.causeCode = before.sweep.causeCode) :
    s.finishSweep before src = s := by
  have silent : ¬ (s.sweepStateNow ≠ before.sweep.state ∨ s.sweep.causeCode ≠ before.sweep.causeCode ∨
      (s.sweepStateNow = .suspended ∧ before.sweep.state = .suspended ∧ before.unloadList ≠ [] ∧ s.unloadList = [])) := by
    rw [now, stood, causes]
    simp
  unfold State.finishSweep
  dsimp only
  rw [if_neg silent, now, ← state]
  rfl

theorem State.sweepStateNow_active (caused : s.sweep.caused = true) (level : s.wind.level ≠ .park)
    (mem : c ∈ s.sweep.list) (present : s.present c = true) : s.sweepStateNow = .active := by
  have some : ¬ s.unloadList.isEmpty = true := fun none => State.unloadList_isEmpty.1 none c mem (State.present_iff.1 present)
  unfold State.sweepStateNow
  rw [caused, Bool.not_true, if_neg Bool.false_ne_true, if_neg level, if_neg some]

theorem State.sweepExit_stuck (low : 1 ≤ c) (high : c ≤ 64) (present : s.present c = true) (active : s.sweep.state = .active)
    (caused : s.sweep.caused = true) (level : s.wind.level ≠ .park) (on : s.listed c = true)
    (aboard : (s.cabin c).aboard = true) (unserved : s.served c = false) (fresh : (s.cabin c).mark ≠ some .stuck)
    (limit : s.active.passes ≤ min ((s.cabin c).passes + 1) 8) :
    s.sweepExit c berth = ((s.withCabin c { s.cabin c with
      passes := min ((s.cabin c).passes + 1) 8, mark := some .stuck }).withSweep
        { s.sweep with list := s.sweep.list.filter (· ≠ c) ++ [c] }).post .stuck false (byte c)
          (byte (min ((s.cabin c).passes + 1) 8)) (byte (s.cabin c).occupancy) (flagByte (s.cabin c).uncertain)
          (byte (berth.code + 1)) := by
  have passed : s.sweepPass c berth = ((s.withCabin c { s.cabin c with
      passes := min ((s.cabin c).passes + 1) 8, mark := some .stuck }).withSweep
        { s.sweep with list := s.sweep.list.filter (· ≠ c) ++ [c] }).post .stuck false (byte c)
          (byte (min ((s.cabin c).passes + 1) 8)) (byte (s.cabin c).occupancy) (flagByte (s.cabin c).uncertain)
          (byte (berth.code + 1)) := by
    have cabin : (s.toTail c).cabin c = s.cabin c := rfl
    unfold State.sweepPass
    dsimp only
    rw [cabin, if_neg fresh, if_pos limit, State.postStuck, State.withCabin_cabin_self low high, State.toTail,
      State.withCabin_withSweep]
  have sweep := (State.sweepPass_spec (s := s) (berth := berth) low high).1
  have kept : s.OnlyChanges (s.sweepPass c berth) [.sweep, .cabins, .notices] :=
    (Move.sweepPass (q := true) s c berth).onlyChanges
  have wind : (s.sweepPass c berth).wind = s.wind := kept .wind (by decide)
  have envelope : (s.sweepPass c berth).envelope = s.envelope := kept .envelope (by decide)
  have now : (s.sweepPass c berth).sweepStateNow = .active :=
    State.sweepStateNow_active (c := c) (by rw [sweep]; exact caused) (by rw [wind]; exact level) (by rw [sweep]; simp)
      (by rw [State.present, envelope]; exact present)
  rw [State.sweepExit_of_pass (by rw [active]; nofun) on aboard unserved,
    State.finishSweep_silent now (by rw [sweep]; exact active) active (by rw [sweep]; rfl), passed]

/-! ## The withdraw point -/

/-- The orders of a withdraw point: the door's lock, and the gate's close where it is not CLOSED (R81). -/
def State.withdrawOrders (s : State) (c : Nat) (berth : Berth) : State :=
  let t := s.originateOrder (.doorLock berth) .hub codeDoorOrder [byte c, 1, 0]
  if (s.board.gates.get berth).entry = .closed then t else t.closeEntry berth

theorem State.withdrawOrders_frame (s : State) (c : Nat) (berth : Berth) : s.OnlyChanges (s.withdrawOrders c berth) [.path] := by
  unfold State.withdrawOrders
  dsimp only
  split
  · exact s.originateOrder_frame _ _ _ _
  · exact (s.originateOrder_frame _ _ _ _).trans (State.originateOrder_frame _ _ _ _ _)

theorem State.boardWithdraw_of_granted (held : s.board.grants.get berth = some g) (standard : g.kind = .standard)
    (granted : g.state = .granted) : s.boardWithdraw g.cabin berth =
    ((s.withdrawOrders g.cabin berth).withGrant berth (some { g with state := .withdrawing })).recomputeBoarding := by
  unfold State.boardWithdraw
  rw [held]
  exact if_pos ⟨rfl, standard, granted⟩

theorem State.boardWithdraw_of_other (h : ¬ ∃ g, s.board.grants.get berth = some g ∧ g.cabin = c ∧ g.kind = .standard ∧
    g.state = .granted) : s.boardWithdraw c berth = s := by
  unfold State.boardWithdraw
  split
  · rfl
  · next g held => exact if_neg fun is => h ⟨g, held, is⟩

/-- What waits under another key than an order's waited before it. -/
theorem State.mem_of_originateOrder {key : OriginKey} {role : Role} {cls : Byte} {payload : List Byte} {o : Originated}
    (mem : o ∈ (s.originateOrder key role cls payload).path.origin) (other : o.key ≠ key) : o ∈ s.path.origin := by
  unfold State.originateOrder at mem
  split at mem
  · exact mem
  · split at mem
    · exact mem
    · exact (State.Withholds.mem_of_placeOrigin mem).resolve_right fun same => other (by rw [same])

/-- Settles O32: the three kinds of event, the exit through the Boarding Screen to the scheduler. -/
theorem zoneEventsAreTaken : Obligations.ZoneEventsAreTaken := by
  intro s c berth present count x here aboard
  obtain ⟨low, within⟩ := State.present_iff.1 present
  have high : c ≤ 64 := within.trans count
  refine ⟨?entry, ⟨fun g held same standard granted => ?withdraw, fun other => State.boardWithdraw_of_other other⟩,
    fun side => ?exit⟩
  case entry =>
    have served := s.setServed_served c false
    refine ⟨(served c).trans (if_pos ⟨rfl, low, high⟩), fun y other => (served y).trans (if_neg fun k => other k.1),
      s.setServed_sweep c false, (Move.setServed (q := true) s c false).onlyChanges⟩
  case withdraw =>
    subst same
    have orders := s.withdrawOrders_frame g.cabin berth
    have board : (s.withdrawOrders g.cabin berth).board = s.board := orders .board (by decide)
    have locks {n : Byte} (screen : s.mode = .screen) (node : s.active.nodeOf .hub = some n) :=
      State.originateOrder_mem (s := s) (key := .doorLock berth) (cls := codeDoorOrder)
        (payload := [byte g.cabin, 1, 0]) screen node
    obtain ⟨t, isTaken⟩ : ∃ t, t = s.takeZoneEvent (.withdraw g.cabin berth) := ⟨_, rfl⟩
    rw [← isTaken]
    have isWithdrawn : t = ((s.withdrawOrders g.cabin berth).withGrant berth
        (some { g with state := .withdrawing })).recomputeBoarding :=
      isTaken.trans (State.boardWithdraw_of_granted held standard granted)
    have path : t.path = (s.withdrawOrders g.cabin berth).path := by rw [isWithdrawn]; rfl
    obtain ⟨forward, reverse, -⟩ := State.recomputeBoarding_ceilings ((s.withdrawOrders g.cabin berth).withGrant berth
      (some { g with state := .withdrawing }))
    have frame : s.OnlyChanges t [.board, .governor, .path] := isTaken ▸ (Move.boardWithdraw s g.cabin berth).onlyChanges
    rw [← isWithdrawn] at forward reverse
    refine ⟨?_, ?_, ?_, forward, reverse, fun monitor => ?_, fun n screen node => ?_, fun n screen node opened => ?_,
      fun closed o mem key => ?_, frame⟩
    · rw [isWithdrawn, State.recomputeBoarding_grants, ← board]
      rfl
    · rw [isWithdrawn, State.recomputeBoarding_gates, ← board]
      rfl
    · rw [isWithdrawn]
      exact State.recomputeBoarding_conditions _
    · rw [path, State.withdrawOrders, State.originateOrder_of_monitor monitor, State.closeEntry,
        State.originateOrder_of_monitor monitor, ite_self]
    · obtain ⟨seq, mem⟩ := locks screen node
      refine ⟨seq, ?_⟩
      rw [path, State.withdrawOrders]
      split
      · exact mem
      · exact State.originateOrder_keeps mem nofun
    · rw [path, State.withdrawOrders, if_neg opened]
      have ordered := s.originateOrder_frame (.doorLock berth) .hub codeDoorOrder [byte g.cabin, 1, 0]
      have mode : (s.originateOrder (.doorLock berth) .hub codeDoorOrder [byte g.cabin, 1, 0]).mode = s.mode :=
        ordered .mode (by decide)
      have active := State.active_congr (ordered .policy (by decide))
      have envelope : (s.originateOrder (.doorLock berth) .hub codeDoorOrder [byte g.cabin, 1, 0]).envelope = s.envelope :=
        ordered .envelope (by decide)
      rw [← envelope]
      exact State.originateOrder_mem (mode.trans screen) ((congrArg (Bank.nodeOf · (.station berth)) active).trans node)
    · rw [path, State.withdrawOrders, if_pos closed] at mem
      exact State.mem_of_originateOrder mem (by rw [key]; nofun)
  case exit =>
    intro t tail
    have exited := State.boardExit_exited (s := s) (berth := berth) low high
    have isExit : t = State.sweepExit ((s.stampExit c).boardExit c berth) c berth := rfl
    have self := State.stampExit_cabin_self (s := s) low high
    have stamped := s.stampExit_frame c
    have stampedSweep : (s.stampExit c).sweep = s.sweep := stamped .sweep (by decide)
    have isAboard : aboard ↔ x.aboard = true := Cabin.aboard_iff.symm
    have marked : (s.stampExit c).listed c = s.listed c := by rw [State.listed, self]; rfl
    generalize (s.stampExit c).boardExit c berth = u at exited isExit
    have kept := (State.KeepsRecords.sweepExit u c berth).cabins c
    have swept := (Move.sweepExit (q := true) u c berth).onlyChanges
    have inputs := (Move.sweepExit (q := true) u c berth).inputs
    rw [← isExit] at kept swept inputs
    obtain ⟨assist, mark, passes, record⟩ := exited.record
    have board : t.board = u.board := swept .board (by decide)
    have active : u.active = s.active := State.active_congr (exited.frame .policy (by decide))
    have aboardThere : (u.cabin c).aboard = x.aboard := by rw [record]; rfl
    have wind : u.wind = s.wind := exited.frame .wind (by decide)
    refine ⟨?_, ?_, ?_, fun y other => ?_, ?_, ?_, fun away => ?_, fun g held same => ?_,
      fun isHere locked => ?_, fun visits => ?_⟩
    · rw [kept, record]
    · rw [kept, record]
    · rw [kept, record]
    · rw [isExit, State.sweepExit_cabin_of_ne other, exited.others y other]
    · rw [board, exited.gates]
    · exact (exited.frame.mono (by decide)).trans (swept.mono (by decide))
    · rw [board, exited.away away]
      exact stamped .board (by decide)
    · obtain ⟨conditions, ceilings⟩ := exited.conditions ⟨g, held, same⟩
      obtain ⟨forward, reverse, -⟩ := inputs.ceilingsAgree ceilings
      refine ⟨inputs.conditionsAgree conditions, forward, reverse, fun locked => ?_, fun unlocked => ?_⟩
      · rw [board, (exited.locked g held same locked).2]
      · rw [board, exited.late g held same unlocked]
    · obtain ⟨g, held, rfl⟩ := isHere
      obtain ⟨isEnd, -⟩ := exited.locked g held rfl locked
      have stampedAboard : ((s.stampExit g.cabin).cabin g.cabin).aboard = x.aboard := by rw [self]; rfl
      refine ⟨fun idle => ?_, fun inForce on empty => ?_, fun inForce caused on some => ?_⟩
      · obtain ⟨list, state, served⟩ := State.endGrant_sweep_of_idle (s := s.stampExit g.cabin) (berth := berth) low high
          (by rw [stampedSweep]; exact idle)
        rw [← isEnd] at list state served
        rw [isExit, State.sweepExit_of_unlisted (.inl state)]
        exact ⟨list.trans (by rw [stampedSweep]), served⟩
      · obtain ⟨list, none⟩ := State.endGrant_sweep_of_empty (s := s.stampExit g.cabin) (berth := berth) low high
          (by rw [stampedSweep]; exact inForce) (marked.trans on)
          (by rw [stampedAboard]; exact Bool.eq_false_iff.2 fun is => empty (isAboard.2 is))
        rw [← isEnd] at list none
        rw [isExit, State.sweepExit_of_unlisted (.inr (State.listed_eq_false.2 none))]
        exact ⟨list.trans (by rw [stampedSweep]), none⟩
      · obtain ⟨list, state, served, cabin⟩ := State.endGrant_sweep_of_aboard (s := s.stampExit g.cabin) (berth := berth)
          low high (by rw [stampedSweep]; exact inForce) (marked.trans on) (by rw [stampedSweep]; exact caused)
          (by rw [stampedAboard]; exact isAboard.1 some)
        rw [← isEnd] at list state served cabin
        rw [State.cycled_cabin_self low high, self] at cabin
        have listed : u.listed g.cabin = true := by rw [State.listed, cabin]; exact on
        obtain ⟨tailed, same⟩ := State.sweepExit_served (berth := berth) state listed
          (aboardThere.trans (isAboard.1 some)) served
        rw [← isExit] at tailed same
        rw [same, cabin]
        exact ⟨tailed.trans (by rw [list, stampedSweep]), rfl, rfl⟩
    · obtain ⟨sweep, cabin⟩ := exited.visiting visits
      have listed : u.listed c = s.listed c := by rw [State.listed, cabin]; rfl
      have flag : u.served c = s.served c := State.served_congr (by rw [sweep]) c
      refine ⟨fun none => ?_, fun inForce on => ⟨fun empty => ?_, fun some served => ?_, fun some unserved => ?_⟩⟩
      · rw [isExit, State.sweepExit_of_unlisted (by rw [sweep, listed]; exact none), cabin]
        exact ⟨sweep, rfl⟩
      · obtain ⟨list, none⟩ := State.sweepExit_empty (s := u) (berth := berth) low high
          (by rw [sweep]; exact inForce) (listed.trans on)
          (by rw [aboardThere]; exact Bool.eq_false_iff.2 fun is => empty (isAboard.2 is))
        rw [← isExit, sweep] at list
        rw [← isExit] at none
        exact ⟨list, none⟩
      · obtain ⟨list, same⟩ := State.sweepExit_served (s := u) (berth := berth) (by rw [sweep]; exact inForce)
          (listed.trans on) (aboardThere.trans (isAboard.1 some)) (flag.trans served)
        rw [← isExit, sweep] at list
        rw [← isExit, cabin] at same
        rw [same]
        exact ⟨list, rfl, rfl⟩
      · obtain ⟨list, passes, mark⟩ := State.sweepExit_pass (s := u) (berth := berth) low high (by rw [sweep]; exact inForce)
          (listed.trans on) (aboardThere.trans (isAboard.1 some)) (flag.trans unserved)
        rw [← isExit, sweep] at list
        rw [← isExit, cabin] at passes
        rw [← isExit, cabin, active] at mark
        intro count
        refine ⟨list, passes, ?_, ?_, fun away inSweep caused level fresh limit => ?_⟩
        · rw [mark]
          split
          · next stuck => exact ⟨fun _ => stuck, fun _ => rfl⟩
          · next passed => exact ⟨nofun, fun stuck => absurd stuck passed⟩
        · rw [mark]
          split
          · next stuck => exact ⟨nofun, fun ⟨fresh, few⟩ => absurd stuck (not_or.2 ⟨fresh, Nat.not_le.2 few⟩)⟩
          · next passed => exact ⟨fun _ => ⟨(not_or.1 passed).1, Nat.lt_of_not_le (not_or.1 passed).2⟩, fun _ => rfl⟩
        · have replaced (y : Cabin) : u.withCabin c y = s.withCabin c y := by
            rw [exited.away away, State.stampExit, State.withCabin_withCabin]
          have envelope : u.envelope = s.envelope := exited.frame .envelope (by decide)
          have stuck := State.sweepExit_stuck (s := u) (berth := berth) low high (by rw [State.present, envelope]; exact present)
            (by rw [sweep]; exact inSweep) (by rw [sweep]; exact caused) (by rw [wind]; exact level) (listed.trans on)
            (aboardThere.trans (isAboard.1 some)) (flag.trans unserved) (by rw [cabin]; exact fresh)
            (by rw [cabin, active]; exact limit)
          rw [replaced, cabin, sweep] at stuck
          exact isExit.trans stuck

end Sys2Proof.Machine
end

section
/-! PROOFS. The reports that may end a grant, and the swap that may follow (R55, R61, R79, R80, R165 to R167, R186): the DOOR
REPORT. -/

namespace Sys2Proof.Machine

variable {s t u : State} {c : Nat} {berth : Berth} {g : Grant}

/-! ## The swap within an event -/

theorem State.KeepsRecords.carryOutDeferred (s : State) : s.KeepsRecords s.carryOutDeferred := by
  have cleared (p : PolicyStore) : s.KeepsRecords (s.withPolicy p) := .of_eq rfl rfl
  unfold State.carryOutDeferred
  split
  · exact (cleared _).trans (.warmRestart _)
  · exact .refl s

theorem State.KeepsRecords.postCommit (s : State) (e : CommitEnd) : s.KeepsRecords (s.postCommit e) :=
  .of_frame (Move.postCommit s e).onlyChanges (by decide) (by decide)

theorem State.KeepsRecords.swapBanks (s : State) : s.KeepsRecords s.swapBanks := by
  have banks (p : PolicyStore) : s.KeepsRecords (s.withPolicy p) := .of_eq rfl rfl
  unfold State.swapBanks
  split
  · exact .refl s
  · dsimp only
    split
    · exact (((banks _).trans (.takeBank _)).trans (.carryOutDeferred _)).trans (.postCommit _ _)
    · exact ((banks _).trans (.postCommit _ _)).trans (.takeBank _)

/-- A swap with a restart deferred leaves the queues to the supervisor side empty. -/
theorem State.swapBanks_queues {x : LoadBank} (bank : s.policy.commitBank = some x) (deferred : s.policy.deferred = true) :
    s.swapBanks.path.supForward = [] ∧ s.swapBanks.path.part = [] := by
  have policy : (s.withPolicy (s.policy.swapTo x)).takeBank.policy = s.policy.swapTo x := State.takeBank_policy _
  have restarted := (s.withPolicy (s.policy.swapTo x)).takeBank.carryOutDeferred_restarted (by rw [policy]; exact deferred)
  obtain ⟨forward, part, -⟩ := restarted.queues
  have swapped : s.swapBanks = (s.withPolicy (s.policy.swapTo x)).takeBank.carryOutDeferred.postCommit .committed := by
    unfold State.swapBanks
    rw [bank]
    exact if_pos deferred
  have path : s.swapBanks.path = (s.withPolicy (s.policy.swapTo x)).takeBank.carryOutDeferred.path := by
    rw [swapped]
    exact (Move.postCommit _ _).onlyChanges .path (by decide)
  rw [path]
  exact ⟨forward, part⟩

theorem State.swapBanks_of_no_bank (h : s.policy.commitBank = none) : s.swapBanks = s := by
  unfold State.swapBanks
  rw [h]

theorem State.afterGrants_of_free {before : State} (held : before.noGrants = false) (free : s.noGrants = true) :
    s.afterGrants before = s.trySwap := if_pos (by rw [held, free]; rfl)

/-- What stands whether or not a swap follows. -/
theorem State.afterGrants_stands (s before : State) (conditions : s.ConditionsAgree) (ceilings : s.CeilingsAgree) :
    (s.afterGrants before).board.grants = s.board.grants ∧ (s.afterGrants before).ConditionsAgree ∧
      (s.afterGrants before).CeilingsAgree ∧ s.KeepsRecords (s.afterGrants before) := by
  have stays : s.board.grants = s.board.grants ∧ s.ConditionsAgree ∧ s.CeilingsAgree ∧ s.KeepsRecords s :=
    ⟨rfl, conditions, ceilings, .refl s⟩
  have swaps (free : s.noGrants = true) : s.swapBanks.board.grants = s.board.grants ∧ s.swapBanks.ConditionsAgree ∧
      s.swapBanks.CeilingsAgree ∧ s.KeepsRecords s.swapBanks := by
    cases bank : s.policy.commitBank with
    | none =>
        rw [State.swapBanks_of_no_bank bank]
        exact stays
    | some x =>
        have swapped := State.swapBanks_swapped bank free
        exact ⟨swapped.grants, swapped.conditions, swapped.ceilings, .swapBanks s⟩
  unfold State.afterGrants
  split
  · next freed =>
    obtain ⟨-, free⟩ := Bool.and_eq_true_iff.1 freed
    unfold State.trySwap
    split
    · exact swaps free
    · exact stays
  · exact stays

theorem State.afterGrants_of_same {before : State} (h : s.noGrants = before.noGrants) : s.afterGrants before = s := by
  refine if_neg ?_
  rw [h]
  cases before.noGrants <;> nofun

theorem State.noGrants_iff_get : s.noGrants = true ↔ ∀ berth, s.board.grants.get berth = none := by
  rw [State.noGrants_iff]
  exact ⟨fun free berth => by cases berth; exacts [free.1, free.2], fun free => ⟨free .a, free .b⟩⟩

theorem State.noGrants_of_held (h : s.board.grants.get berth ≠ none) : s.noGrants = false :=
  Bool.eq_false_iff.2 fun free => h (State.noGrants_iff_get.1 free berth)

/-! ## The door report -/

theorem DoorState.ofCode_eq (x : Byte) : DoorState.ofCode x.toNat =
    if x = 0 then .locked else if x = 1 then .unlocked else if x = 2 then .opened else .fault := by
  have code (n : Nat) (small : n < 256) : x.toNat = n ↔ x = BitVec.ofNat 8 n := by
    rw [← BitVec.toNat_inj, BitVec.toNat_ofNat, Nat.mod_eq_of_lt small]
  have zero : x.toNat = 0 ↔ x = 0 := code 0 (by decide)
  have one : x.toNat = 1 ↔ x = 1 := code 1 (by decide)
  have two : x.toNat = 2 ↔ x = 2 := code 2 (by decide)
  unfold DoorState.ofCode
  split
  · next is => rw [if_pos (zero.1 is)]
  · next is => rw [if_neg (fun h => by rw [zero.2 h] at is; cases is), if_pos (one.1 is)]
  · next is =>
    rw [if_neg (fun h => by rw [zero.2 h] at is; cases is), if_neg (fun h => by rw [one.2 h] at is; cases is), if_pos (two.1 is)]
  · next notZero notOne notTwo => rw [if_neg (mt zero.2 notZero), if_neg (mt one.2 notOne), if_neg (mt two.2 notTwo)]

theorem DoorState.ofCode_eq_locked {x : Byte} : DoorState.ofCode x.toNat = .locked ↔ x = 0 := by
  rw [DoorState.ofCode_eq]
  split
  · next zero => exact ⟨fun _ => zero, fun _ => rfl⟩
  · next other => exact ⟨fun locked => by split_ifs at locked, fun zero => absurd zero other⟩

/-- The register's part of a DOOR REPORT: the door, and the CABIN notice where it is new (R55, R67). -/
def State.heardDoor (s : State) (c : Nat) (d : DoorState) : State :=
  if d = (s.cabin c).door then s.withCabin c { s.cabin c with door := d }
  else (s.withCabin c { s.cabin c with door := d }).postCabin c .door

theorem State.takeDoor_eq (s : State) (c : Nat) (d : DoorState) : s.takeDoor c d = (s.heardDoor c d).boardDoor c d := rfl

theorem State.heardDoor_recorded (low : 1 ≤ c) (high : c ≤ 64) (d : DoorState) :
    s.Recorded (s.heardDoor c d) c { s.cabin c with door := d } := by
  unfold State.heardDoor
  split
  · exact State.recorded low high _
  · exact (State.recorded low high _).postCabin c .door

theorem State.boardDoor_of_granted (held : s.grantOf c = some (berth, g)) : s.boardDoor c .locked = s.endGrant berth g := by
  unfold State.boardDoor
  rw [held]
  exact if_pos rfl

theorem State.boardDoor_of_other {d : DoorState} (h : d ≠ .locked ∨ s.grantOf c = none) :
    s.boardDoor c d = s.recomputeBoarding := by
  unfold State.boardDoor
  split
  · next berth g held => exact if_neg (h.resolve_right (by rw [held]; nofun))
  · rfl

theorem State.grantOf_congr (h : t.board.grants = s.board.grants) (c : Nat) : t.grantOf c = s.grantOf c := by
  unfold State.grantOf
  rw [h]

theorem State.loadBank_congr (h : t.policy = s.policy) (x : LoadBank) : t.loadBank x = s.loadBank x := by
  unfold State.loadBank
  rw [h]

theorem State.holdsGrant_congr (h : t.board.grants = s.board.grants) (c : Nat) : t.holdsGrant c = s.holdsGrant c := by
  rw [State.holdsGrant, State.grantOf_congr h, State.holdsGrant]

/-- Settles O29: the register's part, the end of the cabin's grant, and the swap where it was the last one. -/
theorem lockedReportEndsTheGrant : Obligations.LockedReportEndsTheGrant := by
  intro f cabin door s running good kind payload role present count c x state v set told
  obtain ⟨low, within⟩ := State.present_iff.1 present
  have high : c ≤ 64 := within.trans count
  have frame : s.OnlyChanges v [.path, .notices] := s.sorted_frame f
  have active : v.active = s.active := s.sorted_active f
  have board : v.board = s.board := frame .board (by decide)
  have envelope : v.envelope = s.envelope := frame .envelope (by decide)
  have cabin_eq (y : Nat) : v.cabin y = s.cabin y := State.cabin_congr (frame .cabins (by decide)) y
  have isState : DoorState.ofCode door.toNat = state := DoorState.ofCode_eq door
  have heard : v.heardDoor c state = told := by
    have holds : v.holdsGrant c = s.holdsGrant c := State.holdsGrant_congr (by rw [board]) c
    unfold State.heardDoor
    rw [cabin_eq, State.postCabin_withCabin low high, holds, byte_toNat]
    rfl
  have recorded : v.Recorded told c { x with door := state } := by
    have recorded := State.heardDoor_recorded (s := v) low high state
    rw [heard, cabin_eq] at recorded
    exact recorded
  have toldBoard : told.board = s.board := (recorded.frame .board (by decide) : told.board = v.board).trans board
  have arrived := exec_noted (t := (told.boardDoor c state).afterGrants v) running good fun raised => by
    rw [State.handOver_door raised kind payload (by rw [active]; exact role) (by rw [State.present, envelope]; exact present),
      isState, State.takeDoor_eq, heard]
  refine ⟨frame, fun other => ?stands, fun berth g locked held => ?ends⟩
  case stands =>
    have grants : told.recomputeBoarding.board.grants = s.board.grants :=
      (State.recomputeBoarding_grants _).trans (by rw [toldBoard])
    have gates : told.recomputeBoarding.board.gates = s.board.gates :=
      (State.recomputeBoarding_gates _).trans (by rw [toldBoard])
    have boarded : told.boardDoor c state = told.recomputeBoarding := by
      have ungranted (free : s.grantOf c = none) : told.grantOf c = none :=
        (State.grantOf_congr (by rw [toldBoard]) c).trans free
      exact State.boardDoor_of_other (other.imp
        (fun differs isLocked => differs (DoorState.ofCode_eq_locked.1 (isState.trans isLocked))) ungranted)
    rw [boarded, State.afterGrants_of_same (State.noGrants_congr (by rw [grants, board]))] at arrived
    exact ⟨arrived, by rw [recorded.self], grants, gates, State.recomputeBoarding_conditions _⟩
  case ends =>
    obtain ⟨-, isC⟩ := State.grantOf_eq_some held
    have holds : s.board.grants.get berth = some g := (State.grantOf_eq_some held).1
    have isLocked : state = .locked := isState.symm.trans (DoorState.ofCode_eq_locked.2 locked)
    have boarded : told.boardDoor c state = told.endGrant berth g := by
      rw [isLocked]
      exact State.boardDoor_of_granted ((State.grantOf_congr (by rw [toldBoard]) c).trans held)
    have ended := told.endGrant_ended berth g (by rw [isC]; exact low) (by rw [isC]; exact high)
    have toldSweep : told.sweep = s.sweep :=
      (recorded.frame .sweep (by decide) : told.sweep = v.sweep).trans (frame .sweep (by decide))
    have spares := State.SparesSupervisor.takeDoor v c state
    rw [State.takeDoor_eq, heard] at spares
    rw [boarded] at arrived spares
    generalize isEnd : told.endGrant berth g = w at *
    have whole : s.OnlyChanges w [.path, .notices, .cabins, .board, .governor, .sweep] :=
      ((frame.mono (by decide)).trans (recorded.frame.mono (by decide))).trans (ended.frame.mono (by decide))
    have policy : w.policy = s.policy := whole .policy (by decide)
    have grants : w.board.grants = s.board.grants.set berth none := ended.grants.trans (by rw [toldBoard])
    have heldBefore : v.noGrants = false := State.noGrants_of_held (by rw [board, holds]; nofun)
    obtain ⟨kept, conditions, ceilings, records⟩ := w.afterGrants_stands v ended.conditions ended.ceilings
    have record := ended.record
    rw [isC, recorded.self] at record
    generalize isU : w.afterGrants v = u at *
    have cabin : u.close.cabin c = u.cabin c := State.cabin_congr u.close_cabins c
    obtain ⟨forward, reverse, -⟩ := u.close_inputs.ceilingsAgree ceilings
    refine ⟨u, u.close, arrived, rfl, ?_, u.close_inputs.conditionsAgree conditions, forward, reverse, ?_, ?_, ?_,
      fun left => ?alone, fun k pending bank last => ?swap⟩
    · rw [State.close_board, kept, grants]
    · rw [cabin, records.cabins c, record, isLocked]
    · rw [cabin, records.cabins c, record]
    · rw [cabin, records.cabins c, record]
    case alone =>
      have stays : u = w := by
        rw [← isU]
        rcases left with idle | ⟨other, differs, some⟩
        · exact State.afterGrants_of_idle (by rw [policy]; exact idle)
        · exact State.afterGrants_of_left (State.noGrants_of_held (by rw [grants, PerBerth.get_set_of_ne _ differs]; exact some))
      have sweep : u.close.sweep = w.sweep := by rw [State.close_sweep, stays]
      have same : u.close.cabin c = w.cabin c := by rw [cabin, stays]
      have named : 1 ≤ g.cabin ∧ g.cabin ≤ 64 := by rw [isC]; exact ⟨low, high⟩
      refine ⟨stays, ?_, fun y other => ?_, fun idle => ?_, fun inForce on empty sure => ?_, ?_⟩
      · rw [State.close_board, stays, ended.gates, toldBoard]
      · rw [State.cabin_congr u.close_cabins, stays, ended.others y (by rw [isC]; exact other), recorded.other y other, cabin_eq]
      · have list := (State.endGrant_sweep_of_idle (s := told) (berth := berth) named.1 named.2 (by rw [toldSweep]; exact idle)).1
        rw [isEnd, toldSweep] at list
        rw [sweep, list]
      · obtain ⟨list, mark⟩ := State.endGrant_sweep_of_empty (s := told) (berth := berth) named.1 named.2
          (by rw [toldSweep]; exact inForce) (by rw [isC, State.listed, recorded.self]; exact on)
          (by rw [isC, recorded.self, Cabin.aboard, empty, sure]; rfl)
        rw [isEnd, toldSweep, isC] at list
        rw [isEnd, isC] at mark
        rw [sweep, same]
        exact ⟨list, mark⟩
      · rw [stays]
        exact whole.trans (w.close_frame.mono (by decide))
    case swap =>
      have free : w.noGrants = true := State.noGrants_iff_get.2 fun other => by
        rw [grants]
        by_cases same : other = berth
        · rw [same, PerBerth.get_set_self]
        · rw [PerBerth.get_set_of_ne _ same, last other same]
      have bankThere : w.policy.commitBank = some k := by rw [policy]; exact bank
      have swaps : u = w.swapBanks := by
        rw [← isU, State.afterGrants_of_free heldBefore free]
        exact State.trySwap_of_safe (by rw [policy]; exact pending) free
      have swapped := (State.swapBanks_swapped bankThere free).close
      rw [← swaps] at swapped
      have rim : w.rim = s.rim := whole .rim (by decide)
      refine ⟨by rw [swapped.policy, policy], fun e => ?_, fun direct => ?_, fun deferred => ?_,
        (whole.mono (by decide)).trans swapped.frame⟩
      · rw [swapped.nodes e, State.loadBank_congr policy]
      · obtain ⟨known, fix⟩ := swapped.position (by rw [policy]; exact direct)
        have swapSpares := State.SparesSupervisor.afterGrants (s := w) v (.inr (by rw [policy]; exact direct))
        rw [isU] at swapSpares
        rw [rim] at known fix
        exact ⟨known, fix, (spares.trans swapSpares).forward, (spares.trans swapSpares).part⟩
      · obtain ⟨forwardEmpty, partEmpty⟩ := State.swapBanks_queues bankThere (by rw [policy]; exact deferred)
        rw [← swaps] at forwardEmpty partEmpty
        exact ⟨swapped.reset (by rw [policy]; exact deferred), forwardEmpty, partEmpty⟩

end Sys2Proof.Machine
end

section
/-! PROOFS. The RIM REPORT (R37 to R49, R82, R120, R165, R166): the grants that its zone exits end or leave, the places of the
cabins, and the swap that may follow. -/

namespace Sys2Proof.Machine

variable {s t u : State} {c : Nat} {berth : Berth} {g : Grant} {e : ZoneEvent}

/-! ## One event and the doors, the grants and the ceilings -/

theorem State.endGrant_door (s : State) (berth : Berth) (g : Grant) (d : Nat) :
    ((s.endGrant berth g).cabin d).door = (s.cabin d).door := by
  have cycled := (Move.registerCycle (q := true) (s.withGrant berth none) g.cabin g.kind).inputs.doors d
  have swept := (Move.sweepCycle (q := true) (s.cycled berth g) g.cabin).inputs.doors d
  rw [s.endGrant_eq, State.recomputeBoarding_cabin, swept]
  exact cycled

theorem State.boardExit_door (s : State) (c : Nat) (berth : Berth) (d : Nat) :
    ((s.boardExit c berth).cabin d).door = (s.cabin d).door := by
  unfold State.boardExit
  split
  · rfl
  · next g held =>
    split
    · split
      · exact s.endGrant_door berth g d
      · rfl
    · rfl

theorem State.takeZoneEvent_door (s : State) (e : ZoneEvent) (d : Nat) : ((s.takeZoneEvent e).cabin d).door = (s.cabin d).door := by
  cases e with
  | exit c berth side =>
      have stamped := (Move.stampExit (q := true) s c).inputs.doors d
      have boarded := (s.stampExit c).boardExit_door c berth d
      have swept := (Move.sweepExit (q := true) ((s.stampExit c).boardExit c berth) c berth).inputs.doors d
      exact swept.trans (boarded.trans stamped)
  | entry c berth => exact (Move.setServed (q := true) s c false).inputs.doors d
  | withdraw c berth =>
      exact congrArg Cabin.door (State.cabin_congr ((Move.boardWithdraw s c berth).onlyChanges .cabins (by decide)) d)

theorem State.takeZoneEvent_ceilings (e : ZoneEvent) (agree : s.CeilingsAgree) : (s.takeZoneEvent e).CeilingsAgree := by
  cases e with
  | exit c berth side =>
      have stamped := (Move.stampExit (q := true) s c).inputs.ceilingsAgree agree
      have boarded : ((s.stampExit c).boardExit c berth).CeilingsAgree := by
        unfold State.boardExit
        split
        · exact stamped
        · split
          · split
            · exact State.recomputeBoarding_ceilings _
            · exact State.recomputeBoarding_ceilings _
          · exact stamped
      exact (Move.sweepExit (q := true) ((s.stampExit c).boardExit c berth) c berth).inputs.ceilingsAgree boarded
  | entry c berth => exact (Move.setServed (q := true) s c false).inputs.ceilingsAgree agree
  | withdraw c berth =>
      show (s.boardWithdraw c berth).CeilingsAgree
      unfold State.boardWithdraw
      split
      · exact agree
      · dsimp only
        split
        · exact State.recomputeBoarding_ceilings _
        · exact agree

/-- An event touches the slot of one berth: its grant stays in another state, or ends at its cabin's exit behind a LOCKED door. -/
theorem State.takeZoneEvent_grants (s : State) (e : ZoneEvent) : (s.takeZoneEvent e).board.grants = s.board.grants ∨
    ∃ berth g x, s.board.grants.get berth = some g ∧ (s.takeZoneEvent e).board.grants = s.board.grants.set berth x ∧
      ((∃ g', x = some g' ∧ g'.cabin = g.cabin) ∨
        (x = none ∧ (s.cabin g.cabin).door = .locked ∧ ∃ side, e = .exit g.cabin berth side)) := by
  cases e with
  | exit c berth side =>
      have board : (s.stampExit c).board = s.board := s.stampExit_frame c .board (by decide)
      have doors := (Move.stampExit (q := true) s c).inputs.doors
      have swept : (s.takeZoneEvent (.exit c berth side)).board = ((s.stampExit c).boardExit c berth).board :=
        (Move.sweepExit (q := true) ((s.stampExit c).boardExit c berth) c berth).onlyChanges .board (by decide)
      rw [swept]
      by_cases here : ∃ g, s.board.grants.get berth = some g ∧ g.cabin = c
      · obtain ⟨g, held, rfl⟩ := here
        refine .inr ⟨berth, g, ?_⟩
        by_cases door : (s.cabin g.cabin).door = .locked
        · rw [State.boardExit_of_locked (by rw [board]; exact held) (by rw [doors]; exact door), State.endGrant_grants, board]
          exact ⟨none, held, rfl, .inr ⟨rfl, door, side, rfl⟩⟩
        · rw [State.boardExit_of_unlocked (by rw [board]; exact held) (by rw [doors]; exact door),
            State.recomputeBoarding_grants]
          refine ⟨some { g with state := .late }, held, ?_, .inl ⟨_, rfl, rfl⟩⟩
          rw [← board]
          rfl
      · rw [State.boardExit_of_away (by rw [board]; exact here), board]
        exact .inl rfl
  | entry c berth =>
      exact .inl (congrArg BoardingScreen.grants ((Move.setServed (q := true) s c false).onlyChanges .board (by decide)))
  | withdraw c berth =>
      by_cases point : ∃ g, s.board.grants.get berth = some g ∧ g.cabin = c ∧ g.kind = .standard ∧ g.state = .granted
      · obtain ⟨g, held, rfl, standard, granted⟩ := point
        have board : (s.withdrawOrders g.cabin berth).board = s.board := s.withdrawOrders_frame g.cabin berth .board (by decide)
        have withdrawn : s.takeZoneEvent (.withdraw g.cabin berth) = ((s.withdrawOrders g.cabin berth).withGrant berth
            (some { g with state := .withdrawing })).recomputeBoarding := State.boardWithdraw_of_granted held standard granted
        refine .inr ⟨berth, g, some { g with state := .withdrawing }, held, ?_, .inl ⟨_, rfl, rfl⟩⟩
        rw [withdrawn, State.recomputeBoarding_grants, ← board]
        rfl
      · have stays : s.takeZoneEvent (.withdraw c berth) = s := State.boardWithdraw_of_other point
        rw [stays]
        exact .inl rfl

/-- A free slot stays free. -/
theorem State.takeZoneEvent_free (e : ZoneEvent) (free : s.board.grants.get berth = none) :
    (s.takeZoneEvent e).board.grants.get berth = none := by
  rcases s.takeZoneEvent_grants e with same | ⟨other, g, x, held, set, -⟩
  · rw [same, free]
  · have differs : berth ≠ other := fun h => by
      rw [h, held] at free
      cases free
    rw [set, PerBerth.get_set_of_ne _ differs, free]

/-- A grant stays with its cabin through every event but its exit behind a LOCKED door. -/
theorem State.takeZoneEvent_held (e : ZoneEvent) (held : s.board.grants.get berth = some g)
    (h : (s.cabin g.cabin).door ≠ .locked ∨ ∀ side, e ≠ .exit g.cabin berth side) :
    ∃ g', (s.takeZoneEvent e).board.grants.get berth = some g' ∧ g'.cabin = g.cabin := by
  rcases s.takeZoneEvent_grants e with same | ⟨other, k, x, heldThere, set, becomes⟩
  · exact ⟨g, by rw [same, held], rfl⟩
  · by_cases there : berth = other
    · subst there
      have isG : k = g := Option.some.inj (heldThere.symm.trans held)
      rw [isG] at becomes
      rw [set, PerBerth.get_set_self]
      rcases becomes with stays | ⟨-, locked, side, exit⟩
      · exact stays
      · exact absurd exit (h.resolve_left (not_not.2 locked) side)
    · exact ⟨g, by rw [set, PerBerth.get_set_of_ne _ there, held], rfl⟩

theorem State.takeZoneEvent_ends (held : s.board.grants.get berth = some g) (locked : (s.cabin g.cabin).door = .locked)
    (side : Side) : (s.takeZoneEvent (.exit g.cabin berth side)).board.grants.get berth = none := by
  have board : (s.stampExit g.cabin).board = s.board := s.stampExit_frame g.cabin .board (by decide)
  have doors := (Move.stampExit (q := true) s g.cabin).inputs.doors
  have swept : (s.takeZoneEvent (.exit g.cabin berth side)).board = ((s.stampExit g.cabin).boardExit g.cabin berth).board :=
    (Move.sweepExit (q := true) ((s.stampExit g.cabin).boardExit g.cabin berth) g.cabin berth).onlyChanges .board (by decide)
  rw [swept, State.boardExit_of_locked (by rw [board]; exact held) (by rw [doors]; exact locked), State.endGrant_grants,
    PerBerth.get_set_self]

/-! ## The events of a report -/

theorem State.takeZoneEvents_free (l : List ZoneEvent) (free : s.board.grants.get berth = none) :
    (l.foldl State.takeZoneEvent s).board.grants.get berth = none := by
  induction l generalizing s with
  | nil => exact free
  | cons e l ih => exact ih (State.takeZoneEvent_free e free)

theorem State.takeZoneEvents_held (l : List ZoneEvent) (held : s.board.grants.get berth = some g)
    (h : (s.cabin g.cabin).door ≠ .locked ∨ ∀ side, ZoneEvent.exit g.cabin berth side ∉ l) :
    (l.foldl State.takeZoneEvent s).board.grants.get berth ≠ none := by
  induction l generalizing s g with
  | nil => rw [List.foldl_nil, held]; nofun
  | cons e l ih =>
      have now : (s.cabin g.cabin).door ≠ .locked ∨ ∀ side, e ≠ .exit g.cabin berth side :=
        h.imp_right fun none side same => none side (List.mem_cons.2 (.inl same.symm))
      obtain ⟨g', held', same⟩ := State.takeZoneEvent_held e held now
      refine ih held' ?_
      rw [same, s.takeZoneEvent_door e]
      exact h.imp_right fun none side mem => none side (List.mem_cons_of_mem e mem)

theorem State.takeZoneEvents_ends (l : List ZoneEvent) (held : s.board.grants.get berth = some g)
    (locked : (s.cabin g.cabin).door = .locked) (exits : ∃ side, ZoneEvent.exit g.cabin berth side ∈ l) :
    (l.foldl State.takeZoneEvent s).board.grants.get berth = none := by
  induction l generalizing s g with
  | nil => exact exits.elim fun side mem => absurd mem List.not_mem_nil
  | cons e l ih =>
      by_cases now : ∃ side, e = .exit g.cabin berth side
      · obtain ⟨side, rfl⟩ := now
        exact State.takeZoneEvents_free l (State.takeZoneEvent_ends held locked side)
      · obtain ⟨g', held', same⟩ := State.takeZoneEvent_held e held (.inr fun side is => now ⟨side, is⟩)
        obtain ⟨side, mem⟩ := exits
        refine ih held' ?_ ⟨side, ?_⟩
        · rw [same, s.takeZoneEvent_door e, locked]
        · rw [same]
          exact (List.mem_cons.1 mem).resolve_left fun is => now ⟨side, is.symm⟩

theorem State.takeZoneEvents_ceilings (l : List ZoneEvent) (agree : s.CeilingsAgree) :
    (l.foldl State.takeZoneEvent s).CeilingsAgree := by
  induction l generalizing s with
  | nil => exact agree
  | cons e l ih => exact ih (State.takeZoneEvent_ceilings e agree)

/-! ## The report -/

theorem State.withRim_ceilings {x : RimTracker} (known : x.known = s.rim.known) (agree : s.CeilingsAgree) :
    (s.withRim x).CeilingsAgree :=
  (Move.withRim (q := true) (bs := [.rim]) s x (by decide) fun _ => known).inputs.ceilingsAgree agree

section
variable (s : State) (p : Nat) (v : Int)

theorem State.fixed_rim : (s.fixed p v).rim = { s.rim with
    known := true, fix := some { position := p, speed := v }, watch := some s.active.gov.encoderMs } := rfl

theorem State.fixed_board : (s.fixed p v).board = s.board := rfl

theorem State.fixed_cabin (c : Nat) : (s.fixed p v).cabin c = s.cabin c := rfl

theorem State.moved_rim : (s.moved p v).rim = (s.fixed p v).rim :=
  (Move.foldl (bs := .path :: grantBlocks) Move.takeZoneEvent (s.zoneEvents p v) (s.fixed p v)).onlyChanges .rim (by decide)

theorem State.moved_ceilings : (s.moved p v).CeilingsAgree :=
  State.takeZoneEvents_ceilings _ (State.recomputeCeilings_ceilings _)

theorem State.takeGoodRim_rim : (s.takeGoodRim p v).rim = { s.rim with
    known := true, fix := some { position := p, speed := v }, watch := some s.active.gov.encoderMs
    lastKnown := Vector.ofFn fun i => (s.moveSlot p v i).member
    marks := Vector.ofFn fun i => (s.moveSlot p v i).mark } := by
  rw [State.takeGoodRim_eq, State.withRim_rim, State.moved_rim, State.fixed_rim]

theorem State.takeGoodRim_grants : (s.takeGoodRim p v).board.grants = (s.moved p v).board.grants := by
  rw [State.takeGoodRim_eq, State.withRim_board]

theorem State.takeGoodRim_ceilings : (s.takeGoodRim p v).CeilingsAgree := by
  rw [State.takeGoodRim_eq]
  exact State.withRim_ceilings rfl (s.moved_ceilings p v)

/-- Beyond the wheel a slot is kept. -/
theorem State.takeGoodRim_beyond {i : Fin 64} (h : s.envelope.count ≤ i.val) :
    (s.takeGoodRim p v).rim.lastKnown[i] = s.rim.lastKnown[i] ∧ (s.takeGoodRim p v).rim.marks[i] = s.rim.marks[i] := by
  rw [State.takeGoodRim_rim]
  constructor <;> rw [Fin.getElem_fin, Vector.getElem_ofFn, State.moveSlot_of_beyond h]

/-- On the wheel a cabin stands where its arc puts it. -/
theorem State.takeGoodRim_wheel {i : Fin 64} (h : i.val < s.envelope.count) :
    (s.takeGoodRim p v).rim.lastKnown[i] = s.active.membership s.envelope.count p (i.val + 1) := by
  rw [State.takeGoodRim_rim, Fin.getElem_fin, Vector.getElem_ofFn, State.moveSlot_of_wheel h, moveCabin_eq]

theorem State.takeGoodRim_held (held : s.board.grants.get berth = some g)
    (h : (s.cabin g.cabin).door ≠ .locked ∨ ∀ side, ZoneEvent.exit g.cabin berth side ∉ s.zoneEvents p v) :
    (s.takeGoodRim p v).noGrants = false := by
  refine State.noGrants_of_held (berth := berth) ?_
  rw [State.takeGoodRim_grants]
  exact State.takeZoneEvents_held _ (by rw [State.fixed_board]; exact held) (by rw [State.fixed_cabin]; exact h)

theorem State.takeGoodRim_noGrants (h : ∀ berth g, s.board.grants.get berth = some g → (s.cabin g.cabin).door = .locked ∧
      ∃ side, ZoneEvent.exit g.cabin berth side ∈ s.zoneEvents p v) : (s.takeGoodRim p v).noGrants = true := by
  refine State.noGrants_iff_get.2 fun berth => ?_
  rw [State.takeGoodRim_grants]
  cases slot : s.board.grants.get berth with
  | none => exact State.takeZoneEvents_free _ (by rw [State.fixed_board]; exact slot)
  | some g =>
      obtain ⟨locked, exits⟩ := h berth g slot
      exact State.takeZoneEvents_ends _ (by rw [State.fixed_board]; exact slot) (by rw [State.fixed_cabin]; exact locked) exits

end

/-! ## The swap within the report -/

theorem State.takeBank_lastKnown (s : State) : s.takeBank.rim.lastKnown = Vector.ofFn s.rebank := by
  have moved : s.rimBankChange.windBankChange.rim = s.rimBankChange.rim := (Move.windBankChange _).onlyChanges .rim (by decide)
  rw [State.takeBank, State.recomputeBoarding_rim, moved, State.rimBankChange, State.withRim_rim]

theorem State.rebank_of_fixed {fix : Fix} {i : Fin 64} (fixed : s.rim.fix = some fix) (wheel : i.val < s.envelope.count) :
    s.rebank i = s.active.membership s.envelope.count fix.position (i.val + 1) := by
  unfold State.rebank
  rw [fixed]
  exact if_pos wheel

/-- A swap with no restart deferred places the cabins anew in the zones of the bank that comes into force (R49). -/
theorem State.swapBanks_lastKnown {x : LoadBank} {fix : Fix} {i : Fin 64} (bank : s.policy.commitBank = some x)
    (direct : s.policy.deferred = false) (fixed : s.rim.fix = some fix) (wheel : i.val < s.envelope.count) :
    s.swapBanks.rim.lastKnown[i] = (s.loadBank x).membership s.envelope.count fix.position (i.val + 1) := by
  have swapped : s.swapBanks = ((s.withPolicy (s.policy.swapTo x)).postCommit .committed).takeBank := by
    unfold State.swapBanks
    rw [bank]
    exact if_neg (by rw [direct]; nofun)
  have told := (Move.postCommit (s.withPolicy (s.policy.swapTo x)) .committed).onlyChanges
  have active := (State.active_congr (told .policy (by decide))).trans (s.active_withPolicy_swapTo x)
  have envelope : ((s.withPolicy (s.policy.swapTo x)).postCommit .committed).envelope = s.envelope := told .envelope (by decide)
  have rim : ((s.withPolicy (s.policy.swapTo x)).postCommit .committed).rim = s.rim := told .rim (by decide)
  rw [swapped, State.takeBank_lastKnown]
  generalize (s.withPolicy (s.policy.swapTo x)).postCommit .committed = v at *
  rw [Fin.getElem_fin, Vector.getElem_ofFn, State.rebank_of_fixed (by rw [rim]; exact fixed) (by rw [envelope]; exact wheel),
    active, envelope]

/-- Settles O30: a FAULT report loses the position; a GOOD one takes the fix and the places, and a swap may follow. -/
theorem goodRimReportPlacesCabins : Obligations.GoodRimReportPlacesCabins := by
  intro f p2 p1 p0 v1 v0 status s running good kind payload role n p
  have frame : s.OnlyChanges (s.sorted f) [.path, .notices] := s.sorted_frame f
  have active : (s.sorted f).active = s.active := s.sorted_active f
  have handed (told : Bool) := State.handOver_rim (s := s.sorted f) told kind payload (by rw [active]; exact role)
  have rim : (s.sorted f).rim = s.rim := frame .rim (by decide)
  have envelope : (s.sorted f).envelope = s.envelope := frame .envelope (by decide)
  have policy : (s.sorted f).policy = s.policy := frame .policy (by decide)
  have board : (s.sorted f).board = s.board := frame .board (by decide)
  have doors (c : Nat) : ((s.sorted f).cabin c).door = (s.cabin c).door :=
    congrArg Cabin.door (State.cabin_congr (frame .cabins (by decide)) c)
  have governor : (s.sorted f).governor = s.governor := frame .governor (by decide)
  have events (d : Int) : (s.sorted f).zoneEvents p d = s.zoneEvents p d := State.zoneEvents_congr active envelope rim p d
  refine ⟨fun fault => ?lost, fun valid left => ?placed, fun k valid pending bank held ends => ?swapped⟩
  case lost =>
    have arrived := exec_noted running good fun told => (handed told).trans (if_neg (by rw [fault]; nofun))
    have lost := (s.sorted f).losePosition_governor
    have loss : s.OnlyChanges (s.sorted f).losePosition [.rim, .governor, .path, .notices] :=
      (frame.mono (by decide)).trans ((s.sorted f).losePosition_frame.mono (by decide))
    have gone : (s.sorted f).losePosition.rim = { (s.sorted f).rim with known := false, watch := none } := rfl
    have lostCeilings := (s.sorted f).losePosition_ceilings
    rw [governor] at lost
    rw [rim] at gone
    refine ⟨_, _, arrived, rfl, (s.sorted f).losePosition_frame, ?_⟩
    generalize (s.sorted f).losePosition = u at *
    have closed : u.close.rim = { s.rim with known := false, watch := none } := u.close_rim.trans gone
    obtain ⟨-, -, hold⟩ := u.close_inputs.ceilingsAgree lostCeilings
    refine ⟨closed, fun c => State.reported_of_unknown (by rw [closed]) c, ?_, ?_, loss.trans (u.close_frame.mono (by decide))⟩
    · rw [u.close_inputs.forwardNow, u.close_inputs.reverseNow, u.close_governor]
      exact lost
    · have phase : u.close.phase = .running := (u.close_phase.trans (loss .phase (by decide))).trans running
      have mode : u.close.mode = s.mode := u.close_mode.trans (loss .mode (by decide))
      rw [hold phase, rimHoldFor_eq_true, mode]
  case placed =>
    have arrived := exec_noted running good fun told => (handed told).trans (if_pos valid)
    have stays : ((s.sorted f).takeGoodRim p (signed2 v1 v0)).afterGrants (s.sorted f) =
        (s.sorted f).takeGoodRim p (signed2 v1 v0) := by
      have kept : ((s.sorted f).takeGoodRim p (signed2 v1 v0)).policy = (s.sorted f).policy :=
        (Move.takeGoodRim _ _ _).onlyChanges .policy (by decide)
      rcases left with idle | free | ⟨berth, g, held, away⟩
      · exact State.afterGrants_of_idle (by rw [kept, policy]; exact idle)
      · exact State.afterGrants_of_none ((State.noGrants_congr (by rw [board])).trans free)
      · exact State.afterGrants_of_left ((s.sorted f).takeGoodRim_held p _ (by rw [board]; exact held)
          (by rw [events, doors]; exact away))
    rw [stays] at arrived
    have whole : s.OnlyChanges ((s.sorted f).takeGoodRim p (signed2 v1 v0)) (.rim :: .path :: grantBlocks) :=
      (frame.mono (by decide)).trans (Move.takeGoodRim _ _ _).onlyChanges
    have fixed := (s.sorted f).takeGoodRim_rim p (signed2 v1 v0)
    have ceilings := (s.sorted f).takeGoodRim_ceilings p (signed2 v1 v0)
    have beyond (i : Fin 64) := (s.sorted f).takeGoodRim_beyond p (signed2 v1 v0) (i := i)
    have wheel (i : Fin 64) := (s.sorted f).takeGoodRim_wheel p (signed2 v1 v0) (i := i)
    rw [rim, envelope] at beyond
    rw [active, envelope] at wheel
    rw [rim, active] at fixed
    generalize (s.sorted f).takeGoodRim p (signed2 v1 v0) = w at *
    obtain ⟨forward, reverse, -⟩ := w.close_inputs.ceilingsAgree ceilings
    refine ⟨w.close, arrived, ?_, ?_, ?_, fun i out => ?_, fun i inside => ⟨fun berth there => ?_, fun out => ?_⟩,
      forward, reverse, (whole.mono (by decide)).trans (w.close_frame.mono (by decide))⟩
    · rw [w.close_rim, fixed]
    · rw [w.close_rim, fixed]
    · rw [w.close_rim, fixed]
    · rw [w.close_rim]
      exact beyond i out
    · rw [w.close_rim, wheel i inside] at there
      exact Bank.membership_some there
    · rw [w.close_rim, wheel i inside] at out
      exact Bank.membership_none out
  case swapped =>
    have arrived := exec_noted running good fun told => (handed told).trans (if_pos valid)
    have free := (s.sorted f).takeGoodRim_noGrants p (signed2 v1 v0) fun berth g => by
      rw [board, doors, events]
      exact ends berth g
    have heldBefore : (s.sorted f).noGrants = false := (State.noGrants_congr (by rw [board])).trans held
    have whole : s.OnlyChanges ((s.sorted f).takeGoodRim p (signed2 v1 v0)) (.rim :: .path :: grantBlocks) :=
      (frame.mono (by decide)).trans (Move.takeGoodRim _ _ _).onlyChanges
    have fixed := (s.sorted f).takeGoodRim_rim p (signed2 v1 v0)
    have spares := State.SparesSupervisor.takeGoodRim (s.sorted f) p (signed2 v1 v0)
    rw [State.afterGrants_of_free heldBefore free] at arrived
    generalize (s.sorted f).takeGoodRim p (signed2 v1 v0) = w at *
    have kept : w.policy = s.policy := whole .policy (by decide)
    have count : w.envelope = s.envelope := whole .envelope (by decide)
    have bankThere : w.policy.commitBank = some k := by rw [kept]; exact bank
    have known : w.rim.known = true := by rw [fixed]
    have fix : w.rim.fix = some { position := p, speed := signed2 v1 v0 } := by rw [fixed]
    rw [State.trySwap_of_safe (by rw [kept]; exact pending) free] at arrived
    have swapped := (State.swapBanks_swapped bankThere free).close
    obtain ⟨forward, reverse, -⟩ := swapped.ceilings
    refine ⟨w.swapBanks, w.swapBanks.close, arrived, rfl, ?_, ?_, fun direct => ?_, fun deferred => ?_, swapped.conditions,
      forward, reverse, (whole.mono (by decide)).trans swapped.frame⟩
    · rw [swapped.grants, State.noGrants_eq_true free]
    · rw [swapped.policy, kept]
    · have directly : w.policy.deferred = false := by rw [kept]; exact direct
      have swapSpares : w.SparesSupervisor w.swapBanks := by
        have spared := State.SparesSupervisor.afterGrants (s := w) (s.sorted f) (.inr directly)
        rw [State.afterGrants_of_free heldBefore free, State.trySwap_of_safe (by rw [kept]; exact pending) free] at spared
        exact spared
      obtain ⟨knownStill, fixStill⟩ := swapped.position directly
      refine ⟨(spares.trans swapSpares).forward, (spares.trans swapSpares).part, by rw [knownStill, known],
        by rw [fixStill, fix], fun i inside berth there => ?_⟩
      rw [State.close_rim, State.swapBanks_lastKnown bankThere directly fix (by rw [count]; exact inside),
        State.loadBank_congr kept, count] at there
      exact Bank.membership_some there
    · obtain ⟨forwardEmpty, partEmpty⟩ := State.swapBanks_queues bankThere (by rw [kept]; exact deferred)
      exact ⟨swapped.reset (by rw [kept]; exact deferred), forwardEmpty, partEmpty⟩

end Sys2Proof.Machine
end
